-- ==== Sys2Proof/Word.lean ====
section
/-! DEFINITION. The word types of the block: 8-bit bytes of the command set and of the output stream, and the 32-bit
words of the two memories (10_state.md R22, R26, R27). All values are unsigned (00_scope.md R9). -/

namespace Sys2Proof

/-- A byte: a command-set byte, a byte of OUT, a sample component. -/
abbrev Byte := BitVec 8

/-- A 32-bit word: a sample of PIX, a word of DM, the value of a transaction. -/
abbrev Word := BitVec 32

end Sys2Proof
end

