-- ==== Sys2Proof/Config.lean ====
section
/-! DEFINITION. The implementation parameters of 00_scope.md R6 (configuration, not state: 10_state.md R13), the
defaults this hardware has, and the free values: opaque constants, about which nothing can be proved. -/

namespace Sys2Proof

/-- `PIXEL_LAYOUT` (20_memory.md R47): the byte lane (lane `k` is bits 8k+7 to 8k) that holds each component. -/
structure PixelLayout where
  r : Fin 4
  g : Fin 4
  b : Fin 4
  a : Fin 4
deriving DecidableEq, Repr

/-- `RGBA_LE`: R = s[7:0], G = s[15:8], B = s[23:16], A = s[31:24] (R47). -/
def PixelLayout.rgbaLe : PixelLayout := { r := 0, g := 1, b := 2, a := 3 }

/-- `LUMA_EVAL` (40_quantize.md R93): how the luminance formula is evaluated. -/
inductive LumaEval where
  | exact          -- integer arithmetic, R95
  | binary64Ltr    -- IEEE 754 binary64, left to right, R96
deriving DecidableEq, Repr

/-- `DEGENERATE_POLICY` (42_format.md R134): what ENCODE emits when WIDTH = 0 or HEIGHT = 0. -/
inductive DegeneratePolicy where
  | prefixOnly
  | nothing
deriving DecidableEq, Repr

/-- The parameters of R6 that the source leaves open. -/
structure Config where
  cmdMaxlen : Nat
  maxPixels : Nat
  layout : PixelLayout
  lumaEval : LumaEval
  degenerate : DegeneratePolicy
deriving DecidableEq, Repr

/-- The default of every parameter: the value the spec decides for this hardware (R6). -/
def Config.btq : Config where
  cmdMaxlen := 8
  maxPixels := 4294836225
  layout := PixelLayout.rgbaLe
  lumaEval := .exact
  degenerate := .prefixOnly

/-- The words of DM: `ceil(MAX_PIXELS / 32)` (10_state.md R27). -/
def Config.dmWords (cfg : Config) : Nat := (cfg.maxPixels + 31) / 32

/-- The constraint column of R6's table. -/
def Config.wf (cfg : Config) : Bool :=
  decide (1 ≤ cfg.cmdMaxlen) && decide (cfg.cmdMaxlen ≤ 15) && decide (cfg.maxPixels ≤ 65535 * 65535)
    && decide ([cfg.layout.r, cfg.layout.g, cfg.layout.b, cfg.layout.a].Nodup)

/-- FREE VALUE (93_implementation_defined.md U4, log 6): what word `i` of PIX holds when nothing has written it since
the reset that began epoch `epoch`. -/
opaque Config.unwrittenPixel (epoch : Nat) (i : Nat) : Word

/-- FREE VALUE (U5, log 6): what word `a` of DM holds when nothing has written it since the reset that began `epoch`. -/
opaque Config.unwrittenDots (epoch : Nat) (a : Nat) : Word

/-- FREE VALUE (U3, log 5): what CMD_BYTE[n][j] holds after the RESET move that began `epoch`. -/
opaque Config.unspecifiedCmdByte (epoch : Nat) (n : Fin 8) (j : Fin 16) : Byte

/-- FREE VALUE (U6, log 8): what PIXR or DMR returns while BUSY = 1, one value for each such read. -/
opaque Config.busyReadValue (draw : Nat) : Word

end Sys2Proof
end

