-- ==== Sys2Proof/Syntax.lean ====
section
/-! DEFINITION. The instruction set: one constructor per row of spec/opcode_table.json (seven command words, ten
transactions, 30_encoding.md R87), the register names, and the form in which a move is carried to the block. -/

namespace Sys2Proof

/-- The rows of spec/opcode_table.json. A command row is an 8-bit word written to CTRL (30_encoding.md R66); a
transaction row is an abstract triple of operation, index and value (R71). -/
inductive Instr where
  /-- QUANTIZE, command word 0x10 (40_quantize.md R88). -/
  | quantize
  /-- ENCODE.N, command word 0x20 (42_format.md R138). -/
  | encodeN
  /-- ENCODE.2W, command word 0x21 (R139). -/
  | encode2W
  /-- ENCODE.2H, command word 0x22 (R140). -/
  | encode2H
  /-- ENCODE.Q, command word 0x23 (R141). -/
  | encodeQ
  /-- ENCODE with MODE = 4 + low (command words 0x24 to 0x27, R142). -/
  | encodeUnknown4to7 (low : BitVec 2)
  /-- ENCODE with MODE = 8 + low (command words 0x28 to 0x2F, R142). -/
  | encodeUnknown8to15 (low : BitVec 3)
  /-- WR r, v (43_host_access.md R148). -/
  | wr (r : BitVec 8) (v : Word)
  /-- RD r (R149). -/
  | rd (r : BitVec 8)
  /-- PIXW i, v (R150). -/
  | pixw (i : BitVec 32) (v : Word)
  /-- PIXR i (R151). -/
  | pixr (i : BitVec 32)
  /-- DMW a, v (R152). -/
  | dmw (a : BitVec 27) (v : Word)
  /-- DMR a (R153). -/
  | dmr (a : BitVec 27)
  /-- CMD C: the command write WR 0x00, C (R154). -/
  | cmd (c : Byte)
  /-- SINK.ACCEPT (R155). -/
  | sinkAccept
  /-- RESET (R156). -/
  | reset
  /-- QSTEP, the block's internal move (R160). -/
  | qstep
deriving DecidableEq, Repr

/-- The registers of 10_state.md R24: eight entries of the command-set store, and sixteen numbers for the bytes of each
entry (30_encoding.md R72), of which the first CMD_MAXLEN exist. -/
inductive Reg where
  | ctrl
  | status
  | cause
  | width
  | height
  | threshold
  | cmdLen (n : Fin 8)
  | cmdByte (n : Fin 8) (j : Fin 16)
deriving DecidableEq, Repr

/-- Which form a carried move has: a bare command word, or one of the transaction forms of R71 and R87. -/
inductive MoveOp where
  | word
  | wr
  | rd
  | pixw
  | pixr
  | dmw
  | dmr
  | cmd
  | sinkAccept
  | reset
  | qstep
deriving DecidableEq, Repr

/-- A move as it is carried to the block: R71's abstract triple (operation, index, value). The spec gives the
transactions no bit pattern (R71, R87), so the operation is a name. DESIGN CHOICE, safe (log 3). -/
structure Move where
  op : MoveOp
  index : BitVec 32
  value : Word
deriving DecidableEq, Repr

end Sys2Proof
end

