-- ==== Sys2Proof/WellFormed.lean ====
section
/-! DEFINITION. Which instructions are moves a host can make (43_host_access.md R158): the register number is mapped
(10_state.md R25) and the memory index exists (20_memory.md R57). -/

namespace Sys2Proof

/-- The register number is assigned (10_state.md R24, R25): not 0x06 to 0x0F, not 0x18 to 0x7F, and of the sixteen
numbers of each CMD_BYTE window only the first CMD_MAXLEN. -/
def registerMapped (cfg : Config) (r : BitVec 8) : Bool :=
  decide (r.toNat ≤ 0x05)
    || (decide (0x10 ≤ r.toNat) && decide (r.toNat ≤ 0x17))
    || (decide (0x80 ≤ r.toNat) && decide (r.toNat % 16 < cfg.cmdMaxlen))

/-- The instruction is a move of the system R147 describes, under the parameters `cfg`. -/
def Instr.wfIn (cfg : Config) : Instr → Bool
  | .quantize => true
  | .encodeN => true
  | .encode2W => true
  | .encode2H => true
  | .encodeQ => true
  | .encodeUnknown4to7 _ => true
  | .encodeUnknown8to15 _ => true
  | .wr r _ => registerMapped cfg r
  | .rd r => registerMapped cfg r
  | .pixw i _ => decide (i.toNat < cfg.maxPixels)
  | .pixr i => decide (i.toNat < cfg.maxPixels)
  | .dmw a _ => decide (a.toNat < cfg.dmWords)
  | .dmr a => decide (a.toNat < cfg.dmWords)
  | .cmd _ => true
  | .sinkAccept => true
  | .reset => true
  | .qstep => true

/-- Well-formedness under the parameters of this hardware (00_scope.md R6). -/
def Instr.wf (i : Instr) : Bool := i.wfIn Config.btq

end Sys2Proof
end

