-- ==== Sys2Proof/Decode.lean ====
section
/-! DEFINITION. The decoder of command words (30_encoding.md R70), of carried moves (R71) and of register numbers
(R72), total, rejecting by name; the encoder, written from the same encodings; the host's `decodeTableWord`. -/

namespace Sys2Proof

/-- Why a carried move is no instruction. -/
inductive Reject where
  /-- A bare command word that no command row matches (30_encoding.md R69). The machine takes ILLEGAL_COMMAND for it. -/
  | illegalCommandWord (c : Byte)
  /-- A register number, word index or command word wider than its form has (R71). The model's own, safe (log 3). -/
  | operandTooWide
  /-- A triple with a non-zero operand that its form does not have (R71). The model's own, safe (log 3). -/
  | strayOperand
deriving DecidableEq, Repr

/-- The OP field C[7:4] of a command word (R66). -/
def commandOp (c : Byte) : BitVec 4 := c.extractLsb' 4 4

/-- The MODE field C[3:0] of a command word (R66). -/
def commandMode (c : Byte) : BitVec 4 := c.extractLsb' 0 4

/-- OP value of QUANTIZE (R67). -/
def opQuantize : BitVec 4 := 0x1

/-- OP value of ENCODE (R67). -/
def opEncode : BitVec 4 := 0x2

/-- The decoder of command words (R70): every 8-bit word is one of the command rows or illegal. -/
def decodeCommand (c : Byte) : Except Reject Instr :=
  if commandOp c = opQuantize ∧ commandMode c = 0 then .ok .quantize
  else if commandOp c = opEncode then
    if commandMode c = 0 then .ok .encodeN
    else if commandMode c = 1 then .ok .encode2W
    else if commandMode c = 2 then .ok .encode2H
    else if commandMode c = 3 then .ok .encodeQ
    else if (commandMode c).toNat < 8 then .ok (.encodeUnknown4to7 (c.extractLsb' 0 2))
    else .ok (.encodeUnknown8to15 (c.extractLsb' 0 3))
  else .error (.illegalCommandWord c)

/-- A form that has the operands `index` (of `indexBits` bits) and `value` (of `valueBits` bits): an operand of no bits
is one the form does not have. -/
def checkOperands (indexBits valueBits : Nat) (m : Move) (i : Instr) : Except Reject Instr :=
  if (indexBits = 0 ∧ m.index ≠ 0) ∨ (valueBits = 0 ∧ m.value ≠ 0) then .error .strayOperand
  else if 2 ^ indexBits ≤ m.index.toNat ∨ 2 ^ valueBits ≤ m.value.toNat then .error .operandTooWide
  else .ok i

/-- The decoder of carried moves: a bare command word goes through `decodeCommand`, a transaction gives its operands,
of the widths R71 states (r 8 bits, i 32, a 27, v 32; a command word 8). -/
def decode (m : Move) : Except Reject Instr :=
  match m.op with
  | .word => (checkOperands 0 8 m .quantize).bind fun _ => decodeCommand (m.value.setWidth 8)
  | .wr => checkOperands 8 32 m (.wr (m.index.setWidth 8) m.value)
  | .rd => checkOperands 8 0 m (.rd (m.index.setWidth 8))
  | .pixw => checkOperands 32 32 m (.pixw m.index m.value)
  | .pixr => checkOperands 32 0 m (.pixr m.index)
  | .dmw => checkOperands 27 32 m (.dmw (m.index.setWidth 27) m.value)
  | .dmr => checkOperands 27 0 m (.dmr (m.index.setWidth 27))
  | .cmd => checkOperands 0 8 m (.cmd (m.value.setWidth 8))
  | .sinkAccept => checkOperands 0 0 m .sinkAccept
  | .reset => checkOperands 0 0 m .reset
  | .qstep => checkOperands 0 0 m .qstep

/-- The command word of OP `op` and MODE `mode` (R66). -/
def commandWord (op mode : BitVec 4) : Byte := op ++ mode

/-- A bare command word as it is carried. -/
def wordMove (c : Byte) : Move := { op := .word, index := 0, value := c.setWidth 32 }

/-- The encoder: the command word (R66 to R70) or the transaction triple (R71) of an instruction. -/
def encode : Instr → Move
  | .quantize => wordMove (commandWord opQuantize 0)
  | .encodeN => wordMove (commandWord opEncode 0)
  | .encode2W => wordMove (commandWord opEncode 1)
  | .encode2H => wordMove (commandWord opEncode 2)
  | .encodeQ => wordMove (commandWord opEncode 3)
  | .encodeUnknown4to7 low => wordMove (commandWord opEncode (0b01#2 ++ low))
  | .encodeUnknown8to15 low => wordMove (commandWord opEncode (0b1#1 ++ low))
  | .wr r v => { op := .wr, index := r.setWidth 32, value := v }
  | .rd r => { op := .rd, index := r.setWidth 32, value := 0 }
  | .pixw i v => { op := .pixw, index := i, value := v }
  | .pixr i => { op := .pixr, index := i, value := 0 }
  | .dmw a v => { op := .dmw, index := a.setWidth 32, value := v }
  | .dmr a => { op := .dmr, index := a.setWidth 32, value := 0 }
  | .cmd c => { op := .cmd, index := 0, value := c.setWidth 32 }
  | .sinkAccept => { op := .sinkAccept, index := 0, value := 0 }
  | .reset => { op := .reset, index := 0, value := 0 }
  | .qstep => { op := .qstep, index := 0, value := 0 }

/-- The register a register number names (10_state.md R24, 30_encoding.md R72), or none for an unmapped number (R25). -/
def decodeReg (cfg : Config) (r : BitVec 8) : Option Reg :=
  if r = 0x00 then some .ctrl
  else if r = 0x01 then some .status
  else if r = 0x02 then some .cause
  else if r = 0x03 then some .width
  else if r = 0x04 then some .height
  else if r = 0x05 then some .threshold
  else if r.extractLsb' 3 5 = 0b00010#5 then some (.cmdLen (r.extractLsb' 0 3).toFin)
  else if r.extractLsb' 7 1 = 1#1 ∧ (r.extractLsb' 0 4).toNat < cfg.cmdMaxlen then
    some (.cmdByte (r.extractLsb' 4 3).toFin (r.extractLsb' 0 4).toFin)
  else none

/-- The number of a register: the fixed numbers, `0x10 + n`, `0x80 + 16·n + j` (R72). -/
def encodeReg : Reg → BitVec 8
  | .ctrl => 0x00
  | .status => 0x01
  | .cause => 0x02
  | .width => 0x03
  | .height => 0x04
  | .threshold => 0x05
  | .cmdLen n => BitVec.ofNat 8 (0x10 + n.val)
  | .cmdByte n j => BitVec.ofNat 8 (0x80 + 16 * n.val + j.val)

/-- An opcode-table word as it is carried: the command rows are 8-bit words (R87), the transaction rows have no bit
pattern, so a table word is always a bare command word. -/
def tableMove (nbits w : Nat) : Move := { op := .word, index := 0, value := BitVec.ofNat 32 (w % 2 ^ min nbits 32) }

/-- The instruction the decoder reads from an opcode-table word of `nbits` bits. -/
def decodeTableWord (nbits w : Nat) : Option Instr := (decode (tableMove nbits w)).toOption

end Sys2Proof
end

