-- ==== Sys2Proof/Machine/State.lean ====
section
/-! DEFINITION. The state of the block (10_state.md R13), the model's own bookkeeping beside it, the reasons a step can
stop, and the state after reset (R39). -/

namespace Sys2Proof.Machine

/-- PHASE (10_state.md R29): where the sequencer is. The numeric values are not observable, so an enumeration. -/
inductive Phase where
  | idle    -- no operation in progress
  | qRun    -- QUANTIZE in progress
  | eLs     -- emitting LS_SET
  | eLs24   -- emitting the literal 0x18
  | eSize   -- emitting the size opcode
  | eBop    -- emitting the band opcode
  | eWlo    -- emitting the low width byte
  | eWhi    -- emitting the high width byte
  | eData   -- emitting data bytes
  | eLf     -- emitting CTL_LF
deriving DecidableEq, Repr

/-- A word memory, PIX or DM (20_memory.md R46): (index, word) pairs with strictly rising indices. An index that is not
listed was not written since reset and reads as no value. The unit is the spec's smallest, a 32-bit word (log 11). -/
abbrev Memory := List (Nat × Word)

/-- The state: R13's list, then the model's own four fields. -/
structure State where
  /-- WIDTH (R15). -/
  width : BitVec 16
  /-- HEIGHT (R16). -/
  height : BitVec 16
  /-- THRESHOLD (R17). -/
  threshold : BitVec 8
  /-- STATUS bit 0 BUSY (R19). -/
  busy : Bool
  /-- STATUS bit 1 DONE (R19). -/
  done : Bool
  /-- STATUS bit 2 ERR (R19). -/
  err : Bool
  /-- CAUSE (R20). -/
  cause : BitVec 8
  /-- CMD_LEN[n] (R22). -/
  cmdLen : Vector (BitVec 4) 8
  /-- CMD_BYTE[n][j] (R22), in the sixteen-number window of 30_encoding.md R72; j ≥ CMD_MAXLEN is no register (log 12). -/
  cmdByte : Vector (Vector Byte 16) 8
  /-- PIX (R26). -/
  pix : Memory
  /-- DM (R27). -/
  dm : Memory
  /-- PHASE (R29). -/
  phase : Phase
  /-- I (R30). -/
  i : BitVec 32
  /-- ACC (R30). -/
  acc : BitVec 32
  /-- OFFSET (R31): 17 bits, so that it never wraps. -/
  offset : BitVec 17
  /-- X (R32). -/
  x : BitVec 16
  /-- K (R32). -/
  k : BitVec 2
  /-- J (R33). -/
  j : BitVec 4
  /-- MODE_L (R34). -/
  modeL : BitVec 2
  /-- FAST (R34). -/
  fast : Bool
  /-- OUT (R35): the bytes the sink accepted since reset, oldest first. -/
  out : List Byte
  /-- The model's own (log 1): the moves that host, sink and sequencer make next, in order. -/
  agenda : List Move
  /-- The model's own (log 9): what the last RD, PIXR or DMR returned to the host; none before the first. -/
  readData : Option Word
  /-- The model's own (log 7): how many RESET moves have happened; it numbers unknown memory contents. -/
  epoch : Nat
  /-- The model's own (log 7): how many fresh unspecified values have been returned. -/
  draws : Nat
deriving DecidableEq, Repr

/-- Why the model stops where the sequencer would touch what does not exist. No run reaches such a state (10_state.md
R40); the faults of the block itself (60_exceptions.md R165) are next states, not these. All safe (log 16). -/
inductive Fault where
  /-- SINK.ACCEPT in a state whose J is no byte of an entry: CMD_BYTE[n][J] is unmapped (R25). Safe. -/
  | cmdByteAbsent (n : Fin 8) (j : BitVec 4)
  /-- QSTEP in a state whose I is at or beyond MAX_PIXELS: PIX has no such word (20_memory.md R57). Safe. -/
  | pixelAbsent (i : BitVec 32)
  /-- SINK.ACCEPT in a state where COLBYTE is asked outside its domain (41_pack.md R108, R110): X ≥ WIDTH, or a matrix
  larger than the memories (20_memory.md R58). Safe. -/
  | colByteUndefined (x : BitVec 16)
deriving DecidableEq, Repr

/-- Why the model does not admit a move. All safe: a claim says nothing of runs that contain one. -/
inductive Refusal where
  /-- Raised by an arm of `exec` that has no meaning yet; no arm is. Safe. -/
  | notModelled (mnemonic : String)
  /-- WR or RD on an unmapped register number: no move of the host (43_host_access.md R158). Safe (log 14). -/
  | unmappedRegister (r : BitVec 8)
  /-- PIXW or PIXR with an index ≥ MAX_PIXELS: no move of the host (R158). Safe (log 14). -/
  | pixIndexOutOfRange (i : BitVec 32)
  /-- DMW or DMR with an index ≥ ceil(MAX_PIXELS / 32): no move of the host (R158). Safe (log 14). -/
  | dmIndexOutOfRange (a : BitVec 27)
  /-- SINK.ACCEPT while the block offers no byte: it cannot happen (R155). Safe (log 15). -/
  | nothingOffered
  /-- QSTEP while PHASE is not Q_RUN: it is not enabled (R160). Safe (log 15). -/
  | notQuantizing
  /-- `step` on an entry of the agenda that carries no transaction of R71. Safe (log 3). -/
  | malformedMove (why : Reject)
deriving DecidableEq, Repr

/-- The result of a step or of a meaning. -/
abbrev Result := Host.Outcome State Fault Refusal

/-- The state after a reset (R39), with the contents R39 leaves unspecified (CMD_BYTE) and the model's own fields as
arguments; PIX and DM list nothing. -/
def State.resetWith (cmdByte : Vector (Vector Byte 16) 8) (agenda : List Move) (readData : Option Word)
    (epoch draws : Nat) : State where
  width := 0
  height := 0
  threshold := 127
  busy := false
  done := false
  err := false
  cause := 0
  cmdLen := Vector.replicate 8 0
  cmdByte := cmdByte
  pix := []
  dm := []
  phase := .idle
  i := 0
  acc := 0
  offset := 0
  x := 0
  k := 0
  j := 0
  modeL := 0
  fast := false
  out := []
  agenda := agenda
  readData := readData
  epoch := epoch
  draws := draws

/-- The machine right after reset: R39's table. CMD_BYTE, which R39 leaves unspecified, is 0: DESIGN CHOICE, unsafe
(log 5). The agenda is empty: no move has been placed (log 1). -/
def State.reset : State :=
  State.resetWith (Vector.replicate 8 (Vector.replicate 16 0)) [] none 0 0

end Sys2Proof.Machine
end

