-- ==== Sys2Proof/Machine/Ops.lean ====
section
/-! DEFINITION. The named operations over memories and registers, and the entry of a fault with what follows it. -/

namespace Sys2Proof.Machine

/-- The word an index holds, or no value if nothing has written it since reset. -/
def Memory.read (m : Memory) (i : Nat) : Option Word :=
  match m with
  | [] => none
  | (a, v) :: rest => if a = i then some v else Memory.read rest i

/-- Write one word; the list stays in rising order of index. -/
def Memory.write (m : Memory) (i : Nat) (v : Word) : Memory :=
  match m with
  | [] => [(i, v)]
  | (a, w) :: rest =>
    if i < a then (i, v) :: (a, w) :: rest
    else if i = a then (i, v) :: rest
    else (a, w) :: Memory.write rest i v

/-- Every index of the list is above `lo`, strictly rising. -/
def Memory.risingFrom (lo : Nat) (m : Memory) : Bool :=
  match m with
  | [] => true
  | (a, _) :: rest => decide (lo ≤ a) && Memory.risingFrom (a + 1) rest

/-- The canonical form: indices strictly rising. No entry can equal what an unlisted index reads as, since an unlisted
index reads as no value. -/
def Memory.wf (m : Memory) : Bool := Memory.risingFrom 0 m

/-- Every listed index is below `n`: the memory holds no word that does not exist. -/
def Memory.below (n : Nat) (m : Memory) : Bool := m.all fun c => decide (c.1 < n)

/-- PIX[i]: the word written there, or, if nothing has been written since reset, the epoch's unknown word
(93_implementation_defined.md U4). -/
def State.readPix (s : State) (i : Nat) : Word := (Memory.read s.pix i).getD (Config.unwrittenPixel s.epoch i)

/-- DM[a], likewise (U5). -/
def State.readDm (s : State) (a : Nat) : Word := (Memory.read s.dm a).getD (Config.unwrittenDots s.epoch a)

/-- PIX[i] <- v. -/
def State.writePix (s : State) (i : Nat) (v : Word) : State := { s with pix := Memory.write s.pix i v }

/-- DM[a] <- v. -/
def State.writeDm (s : State) (a : Nat) (v : Word) : State := { s with dm := Memory.write s.dm a v }

/-- CMD_LEN[n]. -/
def State.lenOf (s : State) (n : Fin 8) : BitVec 4 := s.cmdLen.get n

/-- CMD_BYTE[n][j]. -/
def State.byteOf (s : State) (n : Fin 8) (j : Fin 16) : Byte := (s.cmdByte.get n).get j

/-- CMD_LEN[n] <- v. -/
def State.setLen (s : State) (n : Fin 8) (v : BitVec 4) : State := { s with cmdLen := s.cmdLen.set n v }

/-- CMD_BYTE[n][j] <- v. -/
def State.setByte (s : State) (n : Fin 8) (j : Fin 16) (v : Byte) : State :=
  { s with cmdByte := s.cmdByte.set n ((s.cmdByte.get n).set j v) }

/-- The value a read returns to the host. -/
def State.returns (s : State) (v : Word) : State := { s with readData := some v }

/-- `Emit(b)` completes: the sink has accepted b (20_memory.md R55). -/
def State.emit (s : State) (b : Byte) : State := { s with out := s.out ++ [b] }

/-- The faults of the block (60_exceptions.md R165). -/
inductive Cause where
  | configError
  | illegalCommand
  | busyAccess
  | capacityError
deriving DecidableEq, Repr

/-- The codes of R165. -/
def Cause.code : Cause → BitVec 8
  | .configError => 1
  | .illegalCommand => 2
  | .busyAccess => 3
  | .capacityError => 4

/-- Fault entry, `raise F` (R175): ERR <- 1, and CAUSE takes the code if it is still 0. Nothing else changes: no register
is saved, no mode changes, there is no handler; the caller drops the write. There is no return from a fault (R177): the
only way on is `State.afterReset`. -/
def State.raise (s : State) (c : Cause) : State :=
  { s with err := true, cause := if s.cause = 0 then c.code else s.cause }

/-- The bytes of the command-set store after a RESET move: unspecified (10_state.md R39, U3), so free values. The numbers
at and beyond CMD_MAXLEN are no registers. -/
def unspecifiedBytes (cfg : Config) (epoch : Nat) : Vector (Vector Byte 16) 8 :=
  Vector.ofFn fun n => Vector.ofFn fun j =>
    if j.val < cfg.cmdMaxlen then Config.unspecifiedCmdByte epoch n j else 0

/-- RESET (43_host_access.md R156): every piece of state takes its reset value of R39, OUT is empty (70_reset_and_hazards.md
R187), what R39 leaves unspecified is unknown anew. The moves still to come, and what the host has read, are not the
block's and stay (log 13). -/
def State.afterReset (cfg : Config) (s : State) : State :=
  State.resetWith (unspecifiedBytes cfg (s.epoch + 1)) s.agenda s.readData (s.epoch + 1) s.draws

/-- The next move is taken off the agenda. -/
def State.withAgenda (s : State) (rest : List Move) : State := { s with agenda := rest }

end Sys2Proof.Machine
end

