-- ==== Sys2Proof/Machine/Flags.lean ====
section
/-! DEFINITION. The three flags (10_state.md R37) and what sets them; the STATUS view (R19). -/

namespace Sys2Proof.Machine

/-- STATUS: `BUSY | DONE << 1 | ERR << 2`, bits 7 to 3 read 0 (R19, 43_host_access.md R149). -/
def State.status (s : State) : BitVec 8 :=
  (BitVec.ofBool s.busy).setWidth 8 ||| ((BitVec.ofBool s.done).setWidth 8 <<< 1)
    ||| ((BitVec.ofBool s.err).setWidth 8 <<< 2)

/-- Completion, `finish` of 42_format.md R136 and 40_quantize.md R103: PHASE <- IDLE, BUSY <- 0, DONE <- 1. -/
def State.finish (s : State) : State := { s with phase := .idle, busy := false, done := true }

/-- An operation that completes at its acceptance: DONE <- 1, BUSY and PHASE unchanged (40_quantize.md R104,
42_format.md R126). -/
def State.finishAtOnce (s : State) : State := { s with done := true }

/-- An operation goes on after its acceptance: BUSY <- 1, and the sequencer enters `p`. -/
def State.begin (s : State) (p : Phase) : State := { s with busy := true, phase := p }

end Sys2Proof.Machine
end

