-- ==== Sys2Proof/Machine/Luma.lean ====
section
/-! DEFINITION. From a sample to its luminance (40_quantize.md R92 to R96). -/

namespace Sys2Proof.Machine

/-- The component of a sample that a byte lane holds (20_memory.md R47). -/
def lane (s : Word) (k : Fin 4) : Byte := s.extractLsb' (8 * k.val) 8

/-- R95, `EXACT`: `(30·R + 59·G + 11·B) div 100`. -/
def lumaExact (r g b : Byte) : Nat := (30 * r.toNat + 59 * g.toNat + 11 * b.toNat) / 100

/-- `num / den` rounded to the nearest integer, ties to even. -/
def roundHalfEven (num den : Nat) : Nat :=
  let q := num / den
  let twice := 2 * (num % den)
  if twice < den then q
  else if den < twice then q + 1
  else q + q % 2

/-- A non-negative number, in units of 2^-56, rounded to binary64 precision (53 significant bits, nearest, ties to
even). Every number of R96's formula is a multiple of 2^-56 below 2^8, so no exponent limit is met. -/
def roundBinary64 (n : Nat) : Nat :=
  let drop := n.log2 + 1 - 53
  roundHalfEven n (2 ^ drop) * 2 ^ drop

/-- The binary64 number nearest to 0.3, in units of 2^-56 (its last place is 2^-54). PRESUMED, unsafe (log 18). -/
def binary64_0_3 : Nat := roundHalfEven (3 * 2 ^ 54) 10 * 4

/-- The binary64 number nearest to 0.59, in units of 2^-56 (its last place is 2^-53). PRESUMED, unsafe (log 18). -/
def binary64_0_59 : Nat := roundHalfEven (59 * 2 ^ 53) 100 * 8

/-- The binary64 number nearest to 0.11, in units of 2^-56 (its last place is 2^-56). PRESUMED, unsafe (log 18). -/
def binary64_0_11 : Nat := roundHalfEven (11 * 2 ^ 56) 100

/-- R96, `BINARY64_LTR`: `((0.3·R) + (0.59·G)) + (0.11·B)`, each product and sum rounded, then floored. -/
def lumaBinary64 (r g b : Byte) : Nat :=
  let red := roundBinary64 (binary64_0_3 * r.toNat)
  let green := roundBinary64 (binary64_0_59 * g.toNat)
  let blue := roundBinary64 (binary64_0_11 * b.toNat)
  roundBinary64 (roundBinary64 (red + green) + blue) / 2 ^ 56

/-- The luminance of a component triple under `LUMA_EVAL` (R93). -/
def luma (ev : LumaEval) (r g b : Byte) : Nat :=
  match ev with
  | .exact => lumaExact r g b
  | .binary64Ltr => lumaBinary64 r g b

/-- The luminance of a sample: its R, G and B lanes under `PIXEL_LAYOUT` (R92); alpha is not read (R106). -/
def sampleLuma (cfg : Config) (s : Word) : Nat :=
  luma cfg.lumaEval (lane s cfg.layout.r) (lane s cfg.layout.g) (lane s cfg.layout.b)

/-- The dot of a sample: 1 if and only if its luminance is strictly above the threshold (R97). -/
def dotOf (cfg : Config) (threshold : BitVec 8) (s : Word) : Bool :=
  decide (threshold.toNat < sampleLuma cfg s)

end Sys2Proof.Machine
end

