-- ==== Sys2Proof/Machine/Operands.lean ====
section
/-! DEFINITION. The operand forms: the matrix dimensions, the effective mode, the entries of the command-set store,
reading and writing a register by name, and the data byte COLBYTE read back from DM. -/

namespace Sys2Proof.Machine

/-- N = WIDTH · HEIGHT (00_scope.md R7, 40_quantize.md R90), exact. -/
def State.pixels (s : State) : Nat := s.width.toNat * s.height.toNat

/-- NW = ceil(N / 32) (R7). -/
def State.matrixWords (s : State) : Nat := (s.pixels + 31) / 32

/-- WIDTH = 0 or HEIGHT = 0 (00_scope.md R12). -/
def State.degenerate (s : State) : Bool := decide (s.width = 0) || decide (s.height = 0)

/-- The effective mode: MODE if MODE ≤ 3, else 0 (30_encoding.md R68). -/
def effectiveMode (mode : BitVec 4) : BitVec 2 := if mode.toNat ≤ 3 then mode.setWidth 2 else 0

/-- Entry numbers of the command-set store (10_state.md R21). -/
def entryLsSet : Fin 8 := 0
/-- BIT_IMAGE_1, the band opcode of the fast path. -/
def entryBitImage1 : Fin 8 := 5
/-- BIT_IMAGE_33, the band opcode of the banded path. -/
def entryBitImage33 : Fin 8 := 6
/-- CTL_LF, the terminator of a band of the banded path. -/
def entryCtlLf : Fin 8 := 7

/-- The size opcode of an effective mode m is entry 1 + m (30_encoding.md R79). -/
def sizeEntry (m : BitVec 2) : Fin 8 := ⟨1 + m.toNat, by have := m.isLt; omega⟩

/-- The band opcode: BIT_IMAGE_1 on the fast path, BIT_IMAGE_33 on the banded path (30_encoding.md R80). -/
def bandEntry (fast : Bool) : Fin 8 := if fast then entryBitImage1 else entryBitImage33

/-- Entry n is present: 1 ≤ CMD_LEN[n] ≤ CMD_MAXLEN (10_state.md R22). -/
def State.present (cfg : Config) (s : State) (n : Fin 8) : Bool :=
  decide (1 ≤ (s.lenOf n).toNat) && decide ((s.lenOf n).toNat ≤ cfg.cmdMaxlen)

/-- All eight entries are present: the configuration check of 42_format.md R125. -/
def State.allPresent (cfg : Config) (s : State) : Bool := (List.finRange 8).all fun n => s.present cfg n

/-- CMDSTR(n): the first CMD_LEN[n] bytes of entry n (10_state.md R22). -/
def State.cmdStr (s : State) (n : Fin 8) : List Byte := (s.cmdByte.get n).toList.take (s.lenOf n).toNat

/-- The value a register read returns, zero-extended (43_host_access.md R149); CTRL reads 0 (10_state.md R18). -/
def State.readReg (s : State) : Reg → Word
  | .ctrl => 0
  | .status => s.status.setWidth 32
  | .cause => s.cause.setWidth 32
  | .width => s.width.setWidth 32
  | .height => s.height.setWidth 32
  | .threshold => s.threshold.setWidth 32
  | .cmdLen n => (s.lenOf n).setWidth 32
  | .cmdByte n j => (s.byteOf n j).setWidth 32

/-- A register write: the register keeps the low bits of the value (43_host_access.md R159); STATUS and CAUSE are
read-only and keep their value (R148); CTRL holds nothing. -/
def State.writeReg (s : State) (v : Word) : Reg → State
  | .ctrl => s
  | .status => s
  | .cause => s
  | .width => { s with width := v.setWidth 16 }
  | .height => { s with height := v.setWidth 16 }
  | .threshold => { s with threshold := v.setWidth 8 }
  | .cmdLen n => s.setLen n (v.setWidth 4)
  | .cmdByte n j => s.setByte n j (v.setWidth 8)

/-- Pixel index of column x, row y in a matrix of width w (41_pack.md R109). -/
def pixelIndex (w x y : Nat) : Nat := y * w + x

/-- Bit `i mod 32` of word `i div 32` of a matrix whose words `dm` gives (R109, 20_memory.md R49). -/
def dotAt (dm : Nat → Word) (i : Nat) : Bool := (dm (i / 32)).getLsbD (i % 32)

/-- Row r0 + b of column x as COLBYTE sees it: the dot if r0 + b < HEIGHT, else 0, and then DM is not read (R110, R111). -/
def colDot (w h : Nat) (dm : Nat → Word) (x r0 b : Nat) : Bool :=
  if r0 + b < h then dotAt dm (pixelIndex w x (r0 + b)) else false

/-- COLBYTE(x, r0) (41_pack.md R110): eight rows of a column, the top row in bit 7 (20_memory.md R50). -/
def colByte (w h : Nat) (dm : Nat → Word) (x r0 : Nat) : Byte :=
  BitVec.ofBoolListBE
    [colDot w h dm x r0 0, colDot w h dm x r0 1, colDot w h dm x r0 2, colDot w h dm x r0 3,
     colDot w h dm x r0 4, colDot w h dm x r0 5, colDot w h dm x r0 6, colDot w h dm x r0 7]

/-- COLBYTE over the state's matrix (WIDTH, HEIGHT, DM). -/
def State.colByte (s : State) (x r0 : Nat) : Byte :=
  Machine.colByte s.width.toNat s.height.toNat s.readDm x r0

/-- The low byte of the width field (30_encoding.md R76). -/
def widthLo (w : BitVec 16) : Byte := w.extractLsb' 0 8

/-- The high byte of the width field (R76). -/
def widthHi (w : BitVec 16) : Byte := w.extractLsb' 8 8

/-- Put a dot into bit b of a word being assembled (40_quantize.md R98, R102). -/
def orDot (acc : Word) (b : Nat) (dot : Bool) : Word := acc ||| ((BitVec.ofBool dot).setWidth 32 <<< b)

end Sys2Proof.Machine
end

