-- ==== Sys2Proof/Machine/Gate.lean ====
section
/-! DEFINITION. The checks a command write meets (43_host_access.md R154), in their fixed order, as one operation shared by
the command words. -/

namespace Sys2Proof.Machine

/-- Steps 4 and 5 of R154, for a legal command word whose operation is `start`; `needsConfig` is OP = ENCODE. -/
def acceptChecks (cfg : Config) (needsConfig : Bool) (start : State → State) (s : State) : State :=
  if needsConfig && !s.allPresent cfg then s.raise .configError
  else if cfg.maxPixels < s.pixels then s.raise .capacityError
  else start s

/-- Steps 1 and 2 of R154, which every command write meets: while BUSY = 1 it raises BUSY_ACCESS, while ERR = 1 it is
dropped silently (60_exceptions.md R171); otherwise `go`. -/
def commandGate (go : State → State) (s : State) : State :=
  if s.busy then s.raise .busyAccess
  else if s.err then s
  else go s

end Sys2Proof.Machine
end

