-- ==== Sys2Proof/Machine/Encode.lean ====
section
/-! DEFINITION. ENCODE (42_format.md): its start, the byte offered and the transition in each phase (R136), the command
rows and SINK.ACCEPT. -/

namespace Sys2Proof.Machine

/-- Start of ENCODE with effective mode `m` (R126). -/
def startEncode (cfg : Config) (m : BitVec 2) (s : State) : State :=
  let t := { s with done := false, modeL := m, fast := decide (s.height.toNat ≤ 8), offset := 0, x := 0, k := 0, j := 0 }
  if s.degenerate && decide (cfg.degenerate = .nothing) then t.finishAtOnce
  else t.begin .eLs

/-- A command word with OP = 2 and MODE `mode` (R124, R126). -/
def encodeIn (cfg : Config) (mode : BitVec 4) (s : State) : Result :=
  .next (commandGate (acceptChecks cfg true (startEncode cfg (effectiveMode mode))) s)

/-- The byte CMD_BYTE[n][J] of the entry being emitted. In a state whose J is no byte register the model stops (log 16). -/
def offerStored (cfg : Config) (s : State) (n : Fin 8) : Host.Outcome Byte Fault Refusal :=
  if s.j.toNat < cfg.cmdMaxlen then .next (s.byteOf n s.j.toFin) else .fault (.cmdByteAbsent n s.j)

/-- First row of the data byte being emitted: 0 on the fast path, OFFSET + 8·K on the banded path (R136). -/
def dataRow (s : State) : Nat := if s.fast then 0 else s.offset.toNat + 8 * s.k.toNat

/-- The data byte being emitted, inside COLBYTE's domain (41_pack.md R108, R110). -/
def offerData (cfg : Config) (s : State) : Host.Outcome Byte Fault Refusal :=
  if s.x.toNat < s.width.toNat ∧ s.pixels ≤ cfg.maxPixels then .next (s.colByte s.x.toNat (dataRow s))
  else .fault (.colByteUndefined s.x)

/-- The byte the block offers at the sink port, a function of the state alone (20_memory.md R55, R136). While PHASE is IDLE
or Q_RUN it offers nothing. -/
def offered (cfg : Config) (s : State) : Host.Outcome Byte Fault Refusal :=
  match s.phase with
  | .idle => .refused .nothingOffered
  | .qRun => .refused .nothingOffered
  | .eLs => offerStored cfg s entryLsSet
  | .eLs24 => .next 0x18
  | .eSize => offerStored cfg s (sizeEntry s.modeL)
  | .eBop => offerStored cfg s (bandEntry s.fast)
  | .eWlo => .next (widthLo s.width)
  | .eWhi => .next (widthHi s.width)
  | .eData => offerData cfg s
  | .eLf => offerStored cfg s entryCtlLf

/-- J + 1 = CMD_LEN[n]: the offered byte is the last one of entry n (R136). -/
def lastByteOf (s : State) (n : Fin 8) : Bool := decide (s.j.toNat + 1 = (s.lenOf n).toNat)

/-- X + 1 = WIDTH: the column is the last one (R136). -/
def lastColumn (s : State) : Bool := decide (s.x.toNat + 1 = s.width.toNat)

/-- R136, phase E_LS. -/
def advanceLs (s : State) : State :=
  if lastByteOf s entryLsSet then { s with j := 0, phase := .eLs24 } else { s with j := s.j + 1 }

/-- R136, phase E_SIZE: a degenerate matrix ends here (R133). -/
def advanceSize (s : State) : State :=
  if lastByteOf s (sizeEntry s.modeL) then
    if s.degenerate then State.finish { s with j := 0 } else { s with j := 0, phase := .eBop }
  else { s with j := s.j + 1 }

/-- R136, phase E_BOP. -/
def advanceBop (s : State) : State :=
  if lastByteOf s (bandEntry s.fast) then { s with j := 0, phase := .eWlo } else { s with j := s.j + 1 }

/-- R136, phase E_DATA: one byte a column on the fast path, three on the banded path. -/
def advanceData (s : State) : State :=
  if s.fast then
    if lastColumn s then s.finish else { s with x := s.x + 1 }
  else if s.k.toNat < 2 then { s with k := s.k + 1 }
  else if lastColumn s then { s with k := 0, j := 0, phase := .eLf }
  else { s with k := 0, x := s.x + 1 }

/-- R136, phase E_LF: the next band, if its first row is a row of the matrix. -/
def advanceLf (s : State) : State :=
  if lastByteOf s entryCtlLf then
    if s.offset.toNat + 24 < s.height.toNat then { s with j := 0, offset := s.offset + 24, phase := .eBop }
    else State.finish { s with j := 0, offset := s.offset + 24 }
  else { s with j := s.j + 1 }

/-- The sequencer's transition when the sink accepts the offered byte (R136). -/
def advance (s : State) : State :=
  match s.phase with
  | .idle => s
  | .qRun => s
  | .eLs => advanceLs s
  | .eLs24 => { s with phase := .eSize }
  | .eSize => advanceSize s
  | .eBop => advanceBop s
  | .eWlo => { s with phase := .eWhi }
  | .eWhi => { s with x := 0, k := 0, phase := .eData }
  | .eData => advanceData s
  | .eLf => advanceLf s

/-- SINK.ACCEPT (43_host_access.md R155), under the parameters `cfg`: the offered byte is appended to OUT and the sequencer
advances; with no byte offered the event cannot happen. -/
def sinkAcceptIn (cfg : Config) (s : State) : Result :=
  match offered cfg s with
  | .next b => .next ((advance s).emit b)
  | .fault f => .fault f
  | .refused r => .refused r

/-- ENCODE.N (R138): command word 0x20. -/
def execEncodeN (s : State) : Result := encodeIn Config.btq 0 s

/-- ENCODE.2W (R139): command word 0x21. -/
def execEncode2W (s : State) : Result := encodeIn Config.btq 1 s

/-- ENCODE.2H (R140): command word 0x22. -/
def execEncode2H (s : State) : Result := encodeIn Config.btq 2 s

/-- ENCODE.Q (R141): command word 0x23. -/
def execEncodeQ (s : State) : Result := encodeIn Config.btq 3 s

/-- ENCODE with MODE 4 to 7 (R142): an unknown mode, which is not an error. -/
def execEncodeUnknown4to7 (low : BitVec 2) (s : State) : Result := encodeIn Config.btq (0b01#2 ++ low) s

/-- ENCODE with MODE 8 to 15 (R142): an unknown mode, which is not an error. -/
def execEncodeUnknown8to15 (low : BitVec 3) (s : State) : Result := encodeIn Config.btq (0b1#1 ++ low) s

/-- SINK.ACCEPT (R155). -/
def execSinkAccept (s : State) : Result := sinkAcceptIn Config.btq s

end Sys2Proof.Machine
end

