-- ==== Sys2Proof/Machine/Quantize.lean ====
section
/-! DEFINITION. QUANTIZE (40_quantize.md R88): its start, its micro-step, and the two rows QUANTIZE and QSTEP. -/

namespace Sys2Proof.Machine

/-- Start of QUANTIZE (R91): DONE <- 0; with N = 0 it completes at once (R104), else BUSY <- 1, PHASE <- Q_RUN, I <- 0,
ACC <- 0. -/
def startQuantize (s : State) : State :=
  if s.pixels = 0 then State.finishAtOnce { s with done := false }
  else State.begin { s with done := false, i := 0, acc := 0 } .qRun

/-- The word QUANTIZE has assembled once pixel I is thresholded: `acc'` of R102. -/
def quantizeAcc (cfg : Config) (s : State) : Word :=
  orDot s.acc (s.i.toNat % 32) (dotOf cfg s.threshold (s.readPix s.i.toNat))

/-- Pixel I is the last one: `last` of R102. -/
def lastPixel (s : State) : Bool := decide (s.i.toNat + 1 = s.pixels)

/-- The word being assembled is complete: I mod 32 = 31, or pixel I is the last (R102). -/
def wordFull (s : State) : Bool := decide (s.i.toNat % 32 = 31) || lastPixel s

/-- R102's write of the word, or of ACC. -/
def quantizeStore (cfg : Config) (s : State) : State :=
  if wordFull s then { s.writeDm (s.i.toNat / 32) (quantizeAcc cfg s) with acc := 0 }
  else { s with acc := quantizeAcc cfg s }

/-- The micro-step of R102, completing in the step of the last pixel (R103). -/
def quantizeStep (cfg : Config) (s : State) : State :=
  if lastPixel s then (quantizeStore cfg s).finish
  else { quantizeStore cfg s with i := s.i + 1 }

/-- QUANTIZE, the command word 0x10 written to CTRL, under the parameters `cfg`. -/
def quantizeIn (cfg : Config) (s : State) : Result :=
  .next (commandGate (acceptChecks cfg false startQuantize) s)

/-- QSTEP (43_host_access.md R160), enabled only when PHASE = Q_RUN, under the parameters `cfg`. -/
def qstepIn (cfg : Config) (s : State) : Result :=
  if s.phase ≠ .qRun then .refused .notQuantizing
  else if cfg.maxPixels ≤ s.i.toNat then .fault (.pixelAbsent s.i)
  else .next (quantizeStep cfg s)

/-- QUANTIZE (R88). -/
def execQuantize (s : State) : Result := quantizeIn Config.btq s

/-- QSTEP (R160). -/
def execQstep (s : State) : Result := qstepIn Config.btq s

end Sys2Proof.Machine
end

