-- ==== Sys2Proof/Machine/Command.lean ====
section
/-! DEFINITION. The command write `WR 0x00, C` (43_host_access.md R154) and its row CMD. -/

namespace Sys2Proof.Machine

/-- Step 3 of R154: the word is illegal, its OP being neither QUANTIZE nor ENCODE, or QUANTIZE with MODE ≠ 0
(30_encoding.md R69). -/
def commandIllegal (c : Byte) : Bool :=
  (decide (commandOp c ≠ opQuantize) && decide (commandOp c ≠ opEncode))
    || (decide (commandOp c = opQuantize) && decide (commandMode c ≠ 0))

/-- Steps 3 to 6 of R154. -/
def decodedCommand (cfg : Config) (c : Byte) (s : State) : State :=
  if commandIllegal c then s.raise .illegalCommand
  else if commandOp c = opEncode then
    acceptChecks cfg true (startEncode cfg (effectiveMode (commandMode c))) s
  else acceptChecks cfg false startQuantize s

/-- A command write (R154), under the parameters `cfg`. -/
def commandIn (cfg : Config) (c : Byte) (s : State) : Result :=
  .next (commandGate (decodedCommand cfg c) s)

/-- CMD C (R154). -/
def execCmd (c : Byte) (s : State) : Result := commandIn Config.btq c s

end Sys2Proof.Machine
end

