-- ==== Sys2Proof/Machine/Transactions.lean ====
section
/-! DEFINITION. The register and memory transactions of the host (43_host_access.md R148 to R153) and RESET (R156). -/

namespace Sys2Proof.Machine

/-- A write the host makes while the block is busy is dropped and raises BUSY_ACCESS (R157); otherwise `store`. -/
def guardedWrite (store : State → State) (s : State) : State :=
  if s.busy then s.raise .busyAccess else store s

/-- WR r, v (R148): unmapped numbers first, then CTRL (a command), then the BUSY test, then the register. -/
def wrIn (cfg : Config) (r : BitVec 8) (v : Word) (s : State) : Result :=
  match decodeReg cfg r with
  | none => .refused (.unmappedRegister r)
  | some .ctrl => commandIn cfg (v.setWidth 8) s
  | some reg => .next (guardedWrite (fun t => t.writeReg v reg) s)

/-- RD r (R149). -/
def rdIn (cfg : Config) (r : BitVec 8) (s : State) : Result :=
  match decodeReg cfg r with
  | none => .refused (.unmappedRegister r)
  | some reg => .next (s.returns (s.readReg reg))

/-- PIXW i, v (R150). -/
def pixwIn (cfg : Config) (i : BitVec 32) (v : Word) (s : State) : Result :=
  if cfg.maxPixels ≤ i.toNat then .refused (.pixIndexOutOfRange i)
  else .next (guardedWrite (fun t => t.writePix i.toNat v) s)

/-- A read while BUSY = 1: a fresh unspecified value, no fault (R151, R153; 93_implementation_defined.md U6). -/
def State.busyRead (s : State) : State := { s.returns (Config.busyReadValue s.draws) with draws := s.draws + 1 }

/-- PIXR i (R151). -/
def pixrIn (cfg : Config) (i : BitVec 32) (s : State) : Result :=
  if cfg.maxPixels ≤ i.toNat then .refused (.pixIndexOutOfRange i)
  else if s.busy then .next s.busyRead
  else .next (s.returns (s.readPix i.toNat))

/-- DMW a, v (R152). -/
def dmwIn (cfg : Config) (a : BitVec 27) (v : Word) (s : State) : Result :=
  if cfg.dmWords ≤ a.toNat then .refused (.dmIndexOutOfRange a)
  else .next (guardedWrite (fun t => t.writeDm a.toNat v) s)

/-- DMR a (R153). -/
def dmrIn (cfg : Config) (a : BitVec 27) (s : State) : Result :=
  if cfg.dmWords ≤ a.toNat then .refused (.dmIndexOutOfRange a)
  else if s.busy then .next s.busyRead
  else .next (s.returns (s.readDm a.toNat))

/-- RESET (R156), enabled always. -/
def resetIn (cfg : Config) (s : State) : Result := .next (s.afterReset cfg)

/-- WR r, v (R148). -/
def execWr (r : BitVec 8) (v : Word) (s : State) : Result := wrIn Config.btq r v s

/-- RD r (R149). -/
def execRd (r : BitVec 8) (s : State) : Result := rdIn Config.btq r s

/-- PIXW i, v (R150). -/
def execPixw (i : BitVec 32) (v : Word) (s : State) : Result := pixwIn Config.btq i v s

/-- PIXR i (R151). -/
def execPixr (i : BitVec 32) (s : State) : Result := pixrIn Config.btq i s

/-- DMW a, v (R152). -/
def execDmw (a : BitVec 27) (v : Word) (s : State) : Result := dmwIn Config.btq a v s

/-- DMR a (R153). -/
def execDmr (a : BitVec 27) (s : State) : Result := dmrIn Config.btq a s

/-- RESET (R156). -/
def execReset (s : State) : Result := resetIn Config.btq s

end Sys2Proof.Machine
end

