-- ==== Sys2Proof/Machine/Dispatch.lean ====
section
/-! DEFINITION. The dispatch: one arm per row of spec/opcode_table.json. -/

namespace Sys2Proof.Machine

def exec (i : Instr) (s : State) : Host.Outcome State Fault Refusal :=
  match i with
  | .quantize => Sys2Proof.Machine.execQuantize s
  | .encodeN => Sys2Proof.Machine.execEncodeN s
  | .encode2W => Sys2Proof.Machine.execEncode2W s
  | .encode2H => Sys2Proof.Machine.execEncode2H s
  | .encodeQ => Sys2Proof.Machine.execEncodeQ s
  | .encodeUnknown4to7 low => Sys2Proof.Machine.execEncodeUnknown4to7 low s
  | .encodeUnknown8to15 low => Sys2Proof.Machine.execEncodeUnknown8to15 low s
  | .wr r v => Sys2Proof.Machine.execWr r v s
  | .rd r => Sys2Proof.Machine.execRd r s
  | .pixw idx v => Sys2Proof.Machine.execPixw idx v s
  | .pixr idx => Sys2Proof.Machine.execPixr idx s
  | .dmw a v => Sys2Proof.Machine.execDmw a v s
  | .dmr a => Sys2Proof.Machine.execDmr a s
  | .cmd c => Sys2Proof.Machine.execCmd c s
  | .sinkAccept => Sys2Proof.Machine.execSinkAccept s
  | .reset => Sys2Proof.Machine.execReset s
  | .qstep => Sys2Proof.Machine.execQstep s

end Sys2Proof.Machine
end

