-- ==== Sys2Proof/Machine/Fetch.lean ====
section
/-! DEFINITION. What a step does with the next entry of the agenda, and what it does when there is none. -/

namespace Sys2Proof.Machine

/-- No move is on the agenda: the sequencer's own step while PHASE = Q_RUN, which needs no other agent
(43_host_access.md R160); otherwise the block waits and keeps all its state (20_memory.md R56, 60_exceptions.md R184).
DESIGN CHOICE, unsafe (log 2). -/
def stepAlone (s : State) : Result :=
  match s.phase with
  | .qRun => exec .qstep s
  | _ => .next s

/-- A carried move is made: the decoded instruction runs. A bare command word that is illegal is still a command write, and
takes the ILLEGAL_COMMAND path of 43_host_access.md R154 (log 4). A triple that carries no transaction is refused. -/
def performMove (m : Move) (s : State) : Result :=
  match decode m with
  | .ok i => exec i s
  | .error (.illegalCommandWord c) => exec (.cmd c) s
  | .error why => .refused (.malformedMove why)

/-- Take the next move off the agenda and make it. -/
def stepAgenda (s : State) : Result :=
  match s.agenda with
  | [] => stepAlone s
  | m :: rest => performMove m (s.withAgenda rest)

/-- Put a move where the next step takes it from. -/
def State.pushMove (s : State) (m : Move) : State := { s with agenda := m :: s.agenda }

end Sys2Proof.Machine
end

