-- ==== Sys2Proof/Machine/Step.lean ====
section
/-! DEFINITION. The step of the machine, and how the host places an instruction where the step takes its next one. -/

namespace Sys2Proof.Machine

/-- One step: the next move of the agenda (43_host_access.md R147), or, with none, the block's own. -/
def step (s : State) : Host.Outcome State Fault Refusal := stepAgenda s

/-- The opcode-table word `w` of `nbits` bits as the next move (log 1). -/
def State.withFetchWord (s : State) (nbits w : Nat) : State := s.pushMove (tableMove nbits w)

end Sys2Proof.Machine
end

