-- ==== Sys2Proof/Machine/Invariant.lean ====
section
/-! DEFINITION. The invariants of 10_state.md R40, and the facts about the sequencer and the memories that make them
inductive. -/

namespace Sys2Proof.Machine

/-- PHASE is one of the E_ phases: the block offers a byte (20_memory.md R55). -/
def Phase.emitting : Phase → Bool
  | .idle | .qRun => false
  | .eLs | .eLs24 | .eSize | .eBop | .eWlo | .eWhi | .eData | .eLf => true

/-- PHASE is one of the phases of a band: E_BOP, E_WLO, E_WHI, E_DATA or E_LF (R40 h). -/
def Phase.inBand : Phase → Bool
  | .idle | .qRun | .eLs | .eLs24 | .eSize => false
  | .eBop | .eWlo | .eWhi | .eData | .eLf => true

/-- The entry of the command-set store being emitted (R33), if any. -/
def State.emittedEntry (s : State) : Option (Fin 8) :=
  match s.phase with
  | .eLs => some entryLsSet
  | .eSize => some (sizeEntry s.modeL)
  | .eBop => some (bandEntry s.fast)
  | .eLf => some entryCtlLf
  | .idle | .qRun | .eLs24 | .eWlo | .eWhi | .eData => none

/-- R40 (a). -/
abbrev State.busyIffActive (s : State) : Prop := s.busy = true ↔ s.phase ≠ .idle

/-- R40 (b). -/
abbrev State.errIffCause (s : State) : Prop := s.err = true ↔ s.cause ≠ 0

/-- R40 (c). -/
abbrev State.notBusyAndDone (s : State) : Prop := ¬ (s.busy = true ∧ s.done = true)

/-- R40 (d): ACC has no bit set at a position ≥ I mod 32. -/
abbrev State.quantizeBounds (s : State) : Prop :=
  s.phase = .qRun → s.i.toNat < s.pixels ∧ s.acc.toNat < 2 ^ (s.i.toNat % 32)

/-- R40 (e). -/
abbrev State.dataBounds (s : State) : Prop :=
  s.phase = .eData → s.x.toNat < s.width.toNat ∧ s.k.toNat ≤ 2 ∧ (s.fast = true → s.k = 0 ∧ s.offset = 0)
    ∧ s.offset.toNat % 24 = 0 ∧ s.offset.toNat < s.height.toNat

/-- R40 (f). -/
abbrev State.stringBounds (s : State) : Prop :=
  ∀ n : Fin 8, s.emittedEntry = some n → s.j.toNat < (s.lenOf n).toNat

/-- R40 (g). -/
abbrev State.emittingHasConfig (cfg : Config) (s : State) : Prop :=
  s.phase.emitting = true → s.allPresent cfg = true

/-- R40 (h). -/
abbrev State.bandHasMatrix (s : State) : Prop :=
  s.phase.inBand = true → 1 ≤ s.width.toNat ∧ 1 ≤ s.height.toNat

/-- The eight clauses of R40. -/
abbrev State.r40 (cfg : Config) (s : State) : Prop :=
  s.busyIffActive ∧ s.errIffCause ∧ s.notBusyAndDone ∧ s.quantizeBounds ∧ s.dataBounds ∧ s.stringBounds
    ∧ s.emittingHasConfig cfg ∧ s.bandHasMatrix

/-- What the sequencer keeps besides R40, and R40 rests on: the band's first row through the whole band, FAST as it was
latched (R34), OFFSET 0 before the first band (42_format.md R126), J = 0 between two strings (R33), CTL_LF on the banded path
only (42_format.md R130), and the capacity test of the accepted operation (20_memory.md R58). -/
abbrev State.sequenced (cfg : Config) (s : State) : Prop :=
  (s.phase.inBand = true →
      s.offset.toNat % 24 = 0 ∧ s.offset.toNat < s.height.toNat ∧ (s.fast = true → s.offset = 0))
    ∧ (s.phase.emitting = true → s.fast = decide (s.height.toNat ≤ 8))
    ∧ (s.phase = .eLs ∨ s.phase = .eLs24 ∨ s.phase = .eSize → s.offset = 0)
    ∧ (s.phase = .eLs24 → s.j = 0)
    ∧ (s.phase = .eLf → s.fast = false)
    ∧ (s.phase ≠ .idle → s.pixels ≤ cfg.maxPixels)

/-- The memories are in canonical form and hold no word that does not exist (10_state.md R26, R27). -/
abbrev State.memoriesWf (cfg : Config) (s : State) : Prop :=
  s.pix.wf = true ∧ s.dm.wf = true ∧ s.pix.below cfg.maxPixels = true ∧ s.dm.below cfg.dmWords = true

/-- CAUSE holds a code of 60_exceptions.md R165: codes 5 to 255 are never taken. -/
abbrev State.causeLegal (s : State) : Prop := s.cause.toNat ≤ 4

/-- The invariant of the machine. -/
abbrev State.Inv (cfg : Config) (s : State) : Prop :=
  s.r40 cfg ∧ s.sequenced cfg ∧ s.memoriesWf cfg ∧ s.causeLegal

end Sys2Proof.Machine
end

