-- ==== Sys2Proof/Machine/Parametric.lean ====
section
/-! DEFINITION. The machine under any parameters of 00_scope.md R6; `exec` is this one at the defaults (log 10). -/

namespace Sys2Proof.Machine

/-- The effect of a move under the parameters `cfg`. -/
def execIn (cfg : Config) (i : Instr) (s : State) : Result :=
  match i with
  | .quantize => quantizeIn cfg s
  | .encodeN => encodeIn cfg 0 s
  | .encode2W => encodeIn cfg 1 s
  | .encode2H => encodeIn cfg 2 s
  | .encodeQ => encodeIn cfg 3 s
  | .encodeUnknown4to7 low => encodeIn cfg (0b01#2 ++ low) s
  | .encodeUnknown8to15 low => encodeIn cfg (0b1#1 ++ low) s
  | .wr r v => wrIn cfg r v s
  | .rd r => rdIn cfg r s
  | .pixw i v => pixwIn cfg i v s
  | .pixr i => pixrIn cfg i s
  | .dmw a v => dmwIn cfg a v s
  | .dmr a => dmrIn cfg a s
  | .cmd c => commandIn cfg c s
  | .sinkAccept => sinkAcceptIn cfg s
  | .reset => resetIn cfg s
  | .qstep => qstepIn cfg s

end Sys2Proof.Machine
end

