-- ==== Sys2Proof/Machine/Run.lean ====
section
/-! DEFINITION. Making one move several times, stopping at the first fault or refusal. -/

namespace Sys2Proof.Machine

/-- The move `i` made `n` times. -/
def repeatMove (n : Nat) (i : Instr) (s : State) : Result :=
  match n with
  | 0 => .next s
  | k + 1 =>
    match exec i s with
    | .next t => repeatMove k i t
    | .fault f => .fault f
    | .refused r => .refused r

end Sys2Proof.Machine
end

