-- ==== Sys2Proof/Machine/Stream.lean ====
section
/-! DEFINITION. The big-step view: the byte stream of an ENCODE (42_format.md R135, 30_encoding.md R77), its length (R81),
and the matrix of a QUANTIZE (40_quantize.md R88). The micro-steps (R102, R136) are the machine; these are what statements
compare them with. -/

namespace Sys2Proof.Machine

/-- `LS_SET 0x18 SIZE` (R77): the bytes that open every stream. -/
def streamPrefix (m : BitVec 2) (cs : Fin 8 → List Byte) : List Byte := cs entryLsSet ++ [0x18] ++ cs (sizeEntry m)

/-- `[WIDTH[7:0], WIDTH[15:8]]` (R76). -/
def widthField (w : BitVec 16) : List Byte := [widthLo w, widthHi w]

/-- `fastband` of R77: one data byte a column, no CTL_LF (42_format.md R130). -/
def fastBand (w h : BitVec 16) (dm : Nat → Word) (cs : Fin 8 → List Byte) : List Byte :=
  cs entryBitImage1 ++ widthField w ++ (List.range w.toNat).map fun x => colByte w.toNat h.toNat dm x 0

/-- `band(o)` of R77: three data bytes a column, then CTL_LF (R131). -/
def band (w h : BitVec 16) (dm : Nat → Word) (cs : Fin 8 → List Byte) (o : Nat) : List Byte :=
  cs entryBitImage33 ++ widthField w
    ++ ((List.range w.toNat).flatMap fun x => (List.range 3).map fun k => colByte w.toNat h.toNat dm x (o + 8 * k))
    ++ cs entryCtlLf

/-- ceil(h / 24), the number of bands of the banded path (41_pack.md R115). -/
def bandCount (h : BitVec 16) : Nat := (h.toNat + 23) / 24

/-- `bands` of R77. -/
def bands (w h : BitVec 16) (dm : Nat → Word) (cs : Fin 8 → List Byte) : List Byte :=
  if w = 0 ∨ h = 0 then []
  else if h.toNat ≤ 8 then fastBand w h dm cs
  else (List.range (bandCount h)).flatMap fun b => band w h dm cs (24 * b)

/-- EncodeStream(W, H, dm, m, cs) of R135. -/
def encodeStream (cfg : Config) (w h : BitVec 16) (dm : Nat → Word) (m : BitVec 2) (cs : Fin 8 → List Byte) :
    List Byte :=
  if (w = 0 ∨ h = 0) ∧ cfg.degenerate = .nothing then []
  else streamPrefix m cs ++ bands w h dm cs

/-- The stream an ENCODE of effective mode `m` accepted in this state emits. -/
def State.stream (cfg : Config) (s : State) (m : BitVec 2) : List Byte :=
  encodeStream cfg s.width s.height s.readDm m s.cmdStr

/-- The stream length of R81, from the dimensions and the lengths of the stored strings alone. -/
def streamLength (cfg : Config) (w h : BitVec 16) (m : BitVec 2) (len : Fin 8 → Nat) : Nat :=
  let p := len entryLsSet + 1 + len (sizeEntry m)
  if w = 0 ∨ h = 0 then (if cfg.degenerate = .nothing then 0 else p)
  else if h.toNat ≤ 8 then p + len entryBitImage1 + 2 + w.toNat
  else p + bandCount h * (len entryBitImage33 + 2 + 3 * w.toNat + len entryCtlLf)

/-- The dot QUANTIZE gives bit p of the matrix words, pad bits included (40_quantize.md R88, R97, R99): pixel p's dot for
p < N, and 0 beyond. -/
def State.quantizedDot (cfg : Config) (s : State) (p : Nat) : Bool :=
  decide (p < s.pixels) && dotOf cfg s.threshold (s.readPix p)

end Sys2Proof.Machine
end

