-- ==== Sys2Proof/Safety.lean ====
section
/-! DEFINITION. What counts as a safe run, in the terms of 70_reset_and_hazards.md R201 and 60_exceptions.md R176. -/

namespace Sys2Proof.Machine

/-- An operation is pending: not an end of a run (R201). -/
def State.pending (s : State) : Bool := s.busy

/-- An end gone wrong (R201): a fault was raised since reset. -/
def State.endedWrong (s : State) : Bool := s.err

/-- A run has ended well: BUSY = 0, ERR = 0 and no more moves to make (R201), and DONE = 1, which R201's decision adds
(92_eei_decisions.md D15). DEDUCED, unsafe for a claim that a run
with DONE = 0 has not ended well (log 20). -/
def State.endedWell (s : State) : Bool := !s.busy && s.done && !s.err && s.agenda.isEmpty

/-- The move is a command write (43_host_access.md R154): a command row, CMD, or WR to CTRL. -/
def commandWrite : Instr → Bool
  | .quantize => true
  | .encodeN => true
  | .encode2W => true
  | .encode2H => true
  | .encodeQ => true
  | .encodeUnknown4to7 _ => true
  | .encodeUnknown8to15 _ => true
  | .wr r _ => decide (r = 0x00)
  | .rd _ => false
  | .pixw _ _ => false
  | .pixr _ => false
  | .dmw _ _ => false
  | .dmr _ => false
  | .cmd _ => true
  | .sinkAccept => false
  | .reset => false
  | .qstep => false

/-- The move is a write of the host (43_host_access.md R157): of a register or a memory, or a command. -/
def hostWrite : Instr → Bool
  | .quantize => true
  | .encodeN => true
  | .encode2W => true
  | .encode2H => true
  | .encodeQ => true
  | .encodeUnknown4to7 _ => true
  | .encodeUnknown8to15 _ => true
  | .wr _ _ => true
  | .rd _ => false
  | .pixw _ _ => true
  | .pixr _ => false
  | .dmw _ _ => true
  | .dmr _ => false
  | .cmd _ => true
  | .sinkAccept => false
  | .reset => false
  | .qstep => false

/-- What a claim about a run observes (00_scope.md R8, R201): OUT, the registers the host can read, and DM word by word. -/
structure Observation where
  out : List Byte
  width : BitVec 16
  height : BitVec 16
  threshold : BitVec 8
  status : BitVec 8
  cause : BitVec 8
  cmdLen : Vector (BitVec 4) 8
  cmdByte : Vector (Vector Byte 16) 8
  dm : Nat → Word

/-- The observation of a state. -/
def State.observe (s : State) : Observation where
  out := s.out
  width := s.width
  height := s.height
  threshold := s.threshold
  status := s.status
  cause := s.cause
  cmdLen := s.cmdLen
  cmdByte := s.cmdByte
  dm := s.readDm

/-- The matrix two states hold is the same: dimensions, and every word below NW (10_state.md R27). -/
def sameMatrix (s t : State) : Prop :=
  s.width = t.width ∧ s.height = t.height ∧ ∀ a, a < s.matrixWords → s.readDm a = t.readDm a

/-- The values of 10_state.md R39's table. Of CMD_BYTE, PIX and DM, which the table leaves unspecified, it says nothing. -/
def State.hasResetValues (s : State) : Prop :=
  s.width = 0 ∧ s.height = 0 ∧ s.threshold = 127 ∧ s.busy = false ∧ s.done = false ∧ s.err = false ∧ s.cause = 0
    ∧ (∀ n : Fin 8, s.cmdLen.get n = 0) ∧ s.phase = .idle ∧ s.i = 0 ∧ s.acc = 0 ∧ s.x = 0 ∧ s.k = 0 ∧ s.j = 0
    ∧ s.modeL = 0 ∧ s.fast = false ∧ s.offset = 0 ∧ s.out = []

end Sys2Proof.Machine
end

