-- ==== Sys2Proof/Certificates/Slice0/Obligations.lean ====
section
/-! DEFINITION. The statements for the provers. `exec i s = .next t` says that instruction i completes from s in t. Where a
result is an equation with `{ s with … }`, everything not named there is unchanged (the frame). -/

open Sys2Proof Sys2Proof.Machine

/-! ### Encoding, decoding, and the step -/

/-- A step runs the decoded move on the state less that move; an illegal bare command word is a command write; what carries
no transaction is refused by name; with no move to make the sequencer steps alone in Q_RUN, and otherwise the block waits.
The model's own (logs 1 to 4). -/
def Obligations.StepRunsTheDecodedMove : Prop :=
  ∀ s : State,
    (∀ m rest i, s.agenda = m :: rest → decode m = .ok i → step s = exec i { s with agenda := rest })
    ∧ (∀ m rest c, s.agenda = m :: rest → decode m = .error (.illegalCommandWord c) →
        step s = exec (.cmd c) { s with agenda := rest })
    ∧ (∀ m rest why, s.agenda = m :: rest → decode m = .error why → (∀ c, why ≠ .illegalCommandWord c) →
        step s = .refused (.malformedMove why))
    ∧ (s.agenda = [] → s.phase = .qRun → step s = exec .qstep s)
    ∧ (s.agenda = [] → s.phase ≠ .qRun → step s = .next s)

/-- A table word placed as the next move is the very next thing that runs, on the state it was placed in (log 1). -/
def Obligations.PlacedTableWordRunsNext : Prop :=
  ∀ (s : State) (nbits w : Nat) (i : Instr), decodeTableWord nbits w = some i →
    step (s.withFetchWord nbits w) = exec i s

/-- Decoding and encoding agree in both directions, for every instruction with every operand and for every carried move: no
bit of an encoding is dropped, and no move has two meanings (the carrying form is the model's own, log 3). -/
def Obligations.DecodeAndEncodeAgree : Prop :=
  (∀ i : Instr, decode (encode i) = .ok i) ∧ (∀ (m : Move) (i : Instr), decode m = .ok i → encode i = m)

/-- A few words written out from the encodings of R66 to R71 decode to what they stand for. -/
def Obligations.WrittenOutWordsDecode : Prop :=
  decodeCommand 0b00010000 = .ok .quantize
  ∧ decodeCommand 0b00100000 = .ok .encodeN
  ∧ decodeCommand 0b00100001 = .ok .encode2W
  ∧ decodeCommand 0b00100010 = .ok .encode2H
  ∧ decodeCommand 0b00100011 = .ok .encodeQ
  ∧ decodeCommand 0b00100110 = .ok (.encodeUnknown4to7 2)
  ∧ decodeCommand 0b00101111 = .ok (.encodeUnknown8to15 7)
  ∧ decodeCommand 0b00010001 = .error (.illegalCommandWord 0x11)
  ∧ decode { op := .wr, index := 0x05, value := 0x1C8 } = .ok (.wr 0x05 0x1C8)

/-- R69: an OP that is reserved, and QUANTIZE with MODE ≠ 0, raise ILLEGAL_COMMAND and do nothing else; ENCODE with MODE 4 to
15 executes as ENCODE.N; every other word is one of the five commands, so there is no further space. -/
def Obligations.IllegalAndReservedCommandWords : Prop :=
  ∀ (c : Byte) (s : State), s.busy = false → s.err = false →
    (c.extractLsb' 4 4 ≠ 1 → c.extractLsb' 4 4 ≠ 2 →
        exec (.cmd c) s = .next { s with err := true, cause := if s.cause = 0 then 2 else s.cause })
    ∧ (c.extractLsb' 4 4 = 1 → c.extractLsb' 0 4 ≠ 0 →
        exec (.cmd c) s = .next { s with err := true, cause := if s.cause = 0 then 2 else s.cause })
    ∧ (c.extractLsb' 4 4 = 2 → 4 ≤ (c.extractLsb' 0 4).toNat → exec (.cmd c) s = exec .encodeN s)
    ∧ (c.extractLsb' 4 4 = 1 → c.extractLsb' 0 4 = 0 → exec (.cmd c) s = exec .quantize s)
    ∧ (c.extractLsb' 4 4 = 2 → c.extractLsb' 0 4 = 0 → exec (.cmd c) s = exec .encodeN s)
    ∧ (c.extractLsb' 4 4 = 2 → c.extractLsb' 0 4 = 1 → exec (.cmd c) s = exec .encode2W s)
    ∧ (c.extractLsb' 4 4 = 2 → c.extractLsb' 0 4 = 2 → exec (.cmd c) s = exec .encode2H s)
    ∧ (c.extractLsb' 4 4 = 2 → c.extractLsb' 0 4 = 3 → exec (.cmd c) s = exec .encodeQ s)

/-- A command row, a CMD transaction and a WR to CTRL of the same word have the same effect in every state; of a WR to CTRL only
the low eight bits count. (That a bare word is a command write is the model's reading, log 4.) -/
def Obligations.CommandRowsAreCommandWrites : Prop :=
  (∀ (c : Byte) (i : Instr) (s : State), decodeCommand c = .ok i → exec i s = exec (.cmd c) s)
  ∧ ∀ (v : Word) (s : State), exec (.wr 0x00 v) s = exec (.cmd (v.setWidth 8)) s

/-- Register numbers and registers are in one-to-one correspondence: the fixed numbers, 0x10 + n, 0x80 + 16n + j with
j < CMD_MAXLEN = 8 (30_encoding.md section 2). -/
def Obligations.RegisterNumbersAgree : Prop :=
  (∀ reg : Reg, (∀ n j, reg = .cmdByte n j → j.val < 8) → decodeReg Config.btq (encodeReg reg) = some reg)
  ∧ ∀ (r : BitVec 8) (reg : Reg), decodeReg Config.btq r = some reg → encodeReg reg = r

/-- R25: the unmapped numbers are exactly those listed, and a WR or RD on one is refused, whatever the state; on every other
number both are moves. -/
def Obligations.UnmappedRegistersAreRefused : Prop :=
  ∀ (r : BitVec 8) (v : Word) (s : State),
    ((0x06 ≤ r.toNat ∧ r.toNat ≤ 0x0F) ∨ (0x18 ≤ r.toNat ∧ r.toNat ≤ 0x7F)
        ∨ (0x80 ≤ r.toNat ∧ 8 ≤ r.toNat % 16) →
      exec (.wr r v) s = .refused (.unmappedRegister r) ∧ exec (.rd r) s = .refused (.unmappedRegister r))
    ∧ (¬ ((0x06 ≤ r.toNat ∧ r.toNat ≤ 0x0F) ∨ (0x18 ≤ r.toNat ∧ r.toNat ≤ 0x7F)
        ∨ (0x80 ≤ r.toNat ∧ 8 ≤ r.toNat % 16)) →
      (∃ t, exec (.wr r v) s = .next t) ∧ ∃ t, exec (.rd r) s = .next t)

/-! ### The host's transactions -/

/-- R148, R159: WR in its fixed order of tests, for every register number: unmapped refused; CTRL is a command of the low
eight bits; while busy, dropped with BUSY_ACCESS; STATUS and CAUSE dropped; any other register keeps the low bits of the value
(16 for WIDTH and HEIGHT, 4 for CMD_LEN, 8 else), as the next RD shows, every other register and all else unchanged. A length
above CMD_MAXLEN is stored and makes its entry missing. -/
def Obligations.WrWholeEffect : Prop :=
  (∀ (r : BitVec 8) (v : Word) (s : State), registerMapped Config.btq r = false →
      exec (.wr r v) s = .refused (.unmappedRegister r))
  ∧ (∀ (v : Word) (s : State), exec (.wr 0x00 v) s = exec (.cmd (v.setWidth 8)) s)
  ∧ (∀ (r : BitVec 8) (v : Word) (s : State), registerMapped Config.btq r = true → s.busy = true →
      exec (.wr r v) s = .next { s with err := true, cause := if s.cause = 0 then 3 else s.cause })
  ∧ (∀ (v : Word) (s : State), s.busy = false →
      exec (.wr 0x01 v) s = .next s ∧ exec (.wr 0x02 v) s = .next s)
  ∧ (∀ (r : BitVec 8) (v : Word) (s : State), s.busy = false → registerMapped Config.btq r = true →
      r ≠ 0x00 → r ≠ 0x01 → r ≠ 0x02 →
      ∃ t, exec (.wr r v) s = .next t
        ∧ t = { s with
            width := t.width, height := t.height, threshold := t.threshold
            cmdLen := t.cmdLen, cmdByte := t.cmdByte }
        ∧ (∃ u, exec (.rd r) t = .next u
            ∧ u.readData = some (BitVec.ofNat 32 (v.toNat %
                2 ^ (if r = 0x03 ∨ r = 0x04 then 16 else if 0x10 ≤ r.toNat ∧ r.toNat ≤ 0x17 then 4 else 8))))
        ∧ ∀ r' u, r' ≠ r → exec (.rd r') s = .next u →
            ∃ u', exec (.rd r') t = .next u' ∧ u'.readData = u.readData)
  ∧ (∀ (n : Fin 8) (v : Word) (s t : State), 8 < v.toNat % 16 → s.busy = false →
      exec (.wr (BitVec.ofNat 8 (0x10 + n.val)) v) s = .next t → t.present Config.btq n = false)
  ∧ (∀ s : State, s.busy = false → exec (.wr 0x05 0x1C8) s = .next { s with threshold := 200 })
  ∧ ∀ s : State, s.busy = false → exec (.wr 0x03 0x10005) s = .next { s with width := 5 }

/-- RD of every mapped register, at any time: the register's value, zero-extended; CTRL reads 0, STATUS is BUSY, DONE and ERR in
bits 0 to 2. Nothing of the block changes; the value returned is recorded in `readData` (log 9). -/
def Obligations.RdReturnsTheRegister : Prop :=
  ∀ s : State,
    exec (.rd 0x00) s = .next { s with readData := some 0 }
    ∧ exec (.rd 0x01) s = .next { s with
        readData := some (BitVec.ofNat 32 (s.busy.toNat + 2 * s.done.toNat + 4 * s.err.toNat)) }
    ∧ exec (.rd 0x02) s = .next { s with readData := some (BitVec.ofNat 32 s.cause.toNat) }
    ∧ exec (.rd 0x03) s = .next { s with readData := some (BitVec.ofNat 32 s.width.toNat) }
    ∧ exec (.rd 0x04) s = .next { s with readData := some (BitVec.ofNat 32 s.height.toNat) }
    ∧ exec (.rd 0x05) s = .next { s with readData := some (BitVec.ofNat 32 s.threshold.toNat) }
    ∧ (∀ n : Fin 8, exec (.rd (BitVec.ofNat 8 (0x10 + n.val))) s =
        .next { s with readData := some (BitVec.ofNat 32 (s.cmdLen.get n).toNat) })
    ∧ ∀ (n : Fin 8) (j : Fin 16), j.val < 8 → exec (.rd (BitVec.ofNat 8 (0x80 + 16 * n.val + j.val))) s =
        .next { s with readData := some (BitVec.ofNat 32 ((s.cmdByte.get n).get j).toNat) }

/-- R150: PIXW refuses an index at or beyond MAX_PIXELS, is dropped with BUSY_ACCESS while busy, and else stores one word of PIX
and changes nothing else; 0x00C8C8C8 is a grey of R = G = B = 200. -/
def Obligations.PixwStoresOneSample : Prop :=
  (∀ (i : BitVec 32) (v : Word) (s : State),
    (4294836225 ≤ i.toNat → exec (.pixw i v) s = .refused (.pixIndexOutOfRange i))
    ∧ (i.toNat < 4294836225 → s.busy = true →
        exec (.pixw i v) s = .next { s with err := true, cause := if s.cause = 0 then 3 else s.cause })
    ∧ (i.toNat < 4294836225 → s.busy = false →
        ∃ t, exec (.pixw i v) s = .next t ∧ t = { s with pix := t.pix }
          ∧ ∀ n, t.readPix n = if n = i.toNat then v else s.readPix n))
  ∧ (lane 0x00C8C8C8 Config.btq.layout.r).toNat = 200 ∧ (lane 0x00C8C8C8 Config.btq.layout.g).toNat = 200
  ∧ (lane 0x00C8C8C8 Config.btq.layout.b).toNat = 200

/-- PIXR: out of range refused; idle, it returns PIX[i] (the epoch's unknown word if nothing has written it); busy, some value,
about which nothing is said; the block's state is unchanged (`readData` and `draws` are the model's own, logs 7 to 9). -/
def Obligations.PixrReturnsTheSample : Prop :=
  ∀ (i : BitVec 32) (s : State),
    (4294836225 ≤ i.toNat → exec (.pixr i) s = .refused (.pixIndexOutOfRange i))
    ∧ (i.toNat < 4294836225 → s.busy = false →
        exec (.pixr i) s = .next { s with readData := some (s.readPix i.toNat) })
    ∧ (i.toNat < 4294836225 → s.busy = true →
        ∃ v, exec (.pixr i) s = .next { s with readData := some v, draws := s.draws + 1 })

/-- DMW refuses an index at or beyond ceil(MAX_PIXELS / 32), is dropped with BUSY_ACCESS while busy, and else stores one word of
DM and changes nothing else. -/
def Obligations.DmwStoresOneWord : Prop :=
  ∀ (a : BitVec 27) (v : Word) (s : State),
    (134213633 ≤ a.toNat → exec (.dmw a v) s = .refused (.dmIndexOutOfRange a))
    ∧ (a.toNat < 134213633 → s.busy = true →
        exec (.dmw a v) s = .next { s with err := true, cause := if s.cause = 0 then 3 else s.cause })
    ∧ (a.toNat < 134213633 → s.busy = false →
        ∃ t, exec (.dmw a v) s = .next t ∧ t = { s with dm := t.dm }
          ∧ ∀ n, t.readDm n = if n = a.toNat then v else s.readDm n)

/-- DMR: out of range refused; idle, it returns DM[a]; busy, some value, about which nothing is said; the block's state is
unchanged (`readData` and `draws` are the model's own, logs 7 to 9). -/
def Obligations.DmrReturnsTheWord : Prop :=
  ∀ (a : BitVec 27) (s : State),
    (134213633 ≤ a.toNat → exec (.dmr a) s = .refused (.dmIndexOutOfRange a))
    ∧ (a.toNat < 134213633 → s.busy = false →
        exec (.dmr a) s = .next { s with readData := some (s.readDm a.toNat) })
    ∧ (a.toNat < 134213633 → s.busy = true →
        ∃ v, exec (.dmr a) s = .next { s with readData := some v, draws := s.draws + 1 })

/-- R39: RESET completes in every state, and both after it and in the reset state every register and every sequencer variable
has the value of R39's table, and OUT is empty; of CMD_BYTE, PIX and DM, which the table leaves unspecified, nothing is said. -/
def Obligations.ResetGivesTheTableValues : Prop :=
  State.hasResetValues State.reset ∧ ∀ s : State, ∃ t, exec .reset s = .next t ∧ t.hasResetValues

/-! ### Commands -/

/-- R154, R171: what a command write does, for every word, every state and all parameters, checked in the fixed order: BUSY_ACCESS,
the silent drop, ILLEGAL_COMMAND, CONFIG_ERROR, CAPACITY_ERROR, acceptance; a WR to CTRL is the same with the low eight bits. -/
def Obligations.CommandWriteChecksInOrder : Prop :=
  (∀ (cfg : Config) (c : Byte) (s : State),
    execIn cfg (.cmd c) s = .next (
      if s.busy = true then { s with err := true, cause := if s.cause = 0 then 3 else s.cause }
      else if s.err = true then s
      else if (c.extractLsb' 4 4 ≠ 1 ∧ c.extractLsb' 4 4 ≠ 2) ∨ (c.extractLsb' 4 4 = 1 ∧ c.extractLsb' 0 4 ≠ 0) then
        { s with err := true, cause := if s.cause = 0 then 2 else s.cause }
      else if c.extractLsb' 4 4 = 2 ∧ ∃ n : Fin 8, (s.cmdLen.get n).toNat = 0 ∨ cfg.cmdMaxlen < (s.cmdLen.get n).toNat then
        { s with err := true, cause := if s.cause = 0 then 1 else s.cause }
      else if cfg.maxPixels < s.width.toNat * s.height.toNat then
        { s with err := true, cause := if s.cause = 0 then 4 else s.cause }
      else if c.extractLsb' 4 4 = 1 then startQuantize s
      else startEncode cfg (if (c.extractLsb' 0 4).toNat ≤ 3 then c.extractLsb' 0 2 else 0) s))
  ∧ (∀ (c : Byte) (s : State), exec (.cmd c) s = execIn Config.btq (.cmd c) s)
  ∧ ∀ (v : Word) (s : State), exec (.wr 0x00 v) s = exec (.cmd (v.setWidth 8)) s

/-- R91, R104: QUANTIZE written to an idle block that is not faulted: with N = 0 DONE becomes 1 and nothing else changes (BUSY 0 and,
where the invariant of R40 holds, PHASE IDLE); otherwise BUSY <- 1, DONE <- 0, PHASE <- Q_RUN, I and ACC <- 0. It needs no
command-set entry, and the default capacity refuses no matrix. -/
def Obligations.QuantizeStarts : Prop :=
  ∀ s : State, s.busy = false → s.err = false →
    let started :=
      if s.width.toNat * s.height.toNat = 0 then { s with done := true }
      else { s with done := false, busy := true, phase := .qRun, i := 0, acc := 0 }
    exec .quantize s = .next started ∧ exec (.cmd 0x10) s = .next started

/-- R126: ENCODE written to an idle block that is not faulted, with every entry present and the matrix within capacity, under all
parameters; and each of the six command rows, and the CMD transaction of each such word, under this hardware's. -/
def Obligations.EncodeStarts : Prop :=
  (∀ (cfg : Config) (mode : BitVec 4) (s : State), s.busy = false → s.err = false →
      (∀ n : Fin 8, 1 ≤ (s.cmdLen.get n).toNat ∧ (s.cmdLen.get n).toNat ≤ cfg.cmdMaxlen) →
      s.width.toNat * s.height.toNat ≤ cfg.maxPixels →
      encodeIn cfg mode s = .next (
        if (s.width = 0 ∨ s.height = 0) ∧ cfg.degenerate = .nothing then
          { s with
            done := true, modeL := effectiveMode mode, fast := decide (s.height.toNat ≤ 8)
            offset := 0, x := 0, k := 0, j := 0 }
        else
          { s with
            done := false, busy := true, phase := .eLs, modeL := effectiveMode mode
            fast := decide (s.height.toNat ≤ 8), offset := 0, x := 0, k := 0, j := 0 }))
  ∧ ∀ s : State, s.busy = false → s.err = false →
      (∀ n : Fin 8, 1 ≤ (s.cmdLen.get n).toNat ∧ (s.cmdLen.get n).toNat ≤ 8) →
      let started := fun m : BitVec 2 => { s with
        done := false, busy := true, phase := .eLs, modeL := m
        fast := decide (s.height.toNat ≤ 8), offset := 0, x := 0, k := 0, j := 0 }
      exec .encodeN s = .next (started 0) ∧ exec .encode2W s = .next (started 1)
        ∧ exec .encode2H s = .next (started 2) ∧ exec .encodeQ s = .next (started 3)
        ∧ (∀ low, exec (.encodeUnknown4to7 low) s = .next (started 0))
        ∧ (∀ low, exec (.encodeUnknown8to15 low) s = .next (started 0))
        ∧ ∀ c : Byte, c.extractLsb' 4 4 = 2 →
            exec (.cmd c) s = .next (started (effectiveMode (c.extractLsb' 0 4)))

/-- R142: ENCODE with an unknown mode is exactly ENCODE.N, in every state, as a row and as a command word 0x24 to 0x2F. -/
def Obligations.UnknownModesAreNormal : Prop :=
  (∀ (low : BitVec 2) (s : State), exec (.encodeUnknown4to7 low) s = exec .encodeN s)
  ∧ (∀ (low : BitVec 3) (s : State), exec (.encodeUnknown8to15 low) s = exec .encodeN s)
  ∧ ∀ (c : Byte) (s : State), 0x24 ≤ c.toNat → c.toNat ≤ 0x2F → exec (.cmd c) s = exec .encodeN s

/-- R166: any ENCODE with at least one entry missing, the earlier checks not applying, raises CONFIG_ERROR and changes nothing else
(OUT, BUSY and DONE keep their values), whatever the mode, the path and the matrix; QUANTIZE never raises it. -/
def Obligations.MissingEntryRefusesEveryEncode : Prop :=
  (∀ s : State, s.busy = false → s.err = false →
    (∃ n : Fin 8, (s.cmdLen.get n).toNat = 0 ∨ 8 < (s.cmdLen.get n).toNat) →
    let refusedState := { s with err := true, cause := if s.cause = 0 then 1 else s.cause }
    (∀ c : Byte, c.extractLsb' 4 4 = 2 → exec (.cmd c) s = .next refusedState)
      ∧ exec .encodeN s = .next refusedState ∧ exec .encode2W s = .next refusedState
      ∧ exec .encode2H s = .next refusedState ∧ exec .encodeQ s = .next refusedState
      ∧ (∀ low, exec (.encodeUnknown4to7 low) s = .next refusedState)
      ∧ ∀ low, exec (.encodeUnknown8to15 low) s = .next refusedState)
  ∧ ∀ s t : State, exec .quantize s = .next t → t.cause = 1 → s.cause = 1

/-- R169: a legal command on a matrix above MAX_PIXELS, no earlier check applying, raises CAPACITY_ERROR and changes nothing else;
with this hardware's MAX_PIXELS the condition is never true and no move ever gives that cause. -/
def Obligations.CapacityErrorNeedsASmallerMemory : Prop :=
  (∀ (cfg : Config) (c : Byte) (s : State), s.busy = false → s.err = false →
      (c = 0x10 ∨ (c.extractLsb' 4 4 = 2
        ∧ ∀ n : Fin 8, 1 ≤ (s.cmdLen.get n).toNat ∧ (s.cmdLen.get n).toNat ≤ cfg.cmdMaxlen)) →
      cfg.maxPixels < s.width.toNat * s.height.toNat →
      execIn cfg (.cmd c) s = .next { s with err := true, cause := if s.cause = 0 then 4 else s.cause })
  ∧ (∀ s : State, s.width.toNat * s.height.toNat ≤ Config.btq.maxPixels)
  ∧ ∀ (i : Instr) (s t : State), exec i s = .next t → t.cause = 4 → s.cause = 4

/-! ### Faults -/

/-- R175: fault entry sets ERR, records the code in CAUSE only if CAUSE is 0, and changes nothing else; the codes are 1 to 4; and a
write that raises a fault does that and nothing more, so it is dropped. -/
def Obligations.FaultEntryRecordsTheFirstCode : Prop :=
  (∀ (s : State) (c : Cause),
    s.raise c = { s with err := true, cause := if s.cause = 0 then c.code else s.cause })
  ∧ Cause.configError.code = 1 ∧ Cause.illegalCommand.code = 2 ∧ Cause.busyAccess.code = 3
  ∧ Cause.capacityError.code = 4
  ∧ (∀ (s : State) (r : BitVec 8) (v : Word), s.busy = true → registerMapped Config.btq r = true →
      exec (.wr r v) s = .next (s.raise .busyAccess))
  ∧ (∀ (s : State) (n : BitVec 32) (v : Word), s.busy = true → n.toNat < 4294836225 →
      exec (.pixw n v) s = .next (s.raise .busyAccess))
  ∧ (∀ (s : State) (a : BitVec 27) (v : Word), s.busy = true → a.toNat < 134213633 →
      exec (.dmw a v) s = .next (s.raise .busyAccess))
  ∧ (∀ s : State, s.busy = false → s.err = false → exec (.cmd 0x00) s = .next (s.raise .illegalCommand))
  ∧ (∀ s : State, s.busy = false → s.err = false → s.cmdLen.get 7 = 0 →
      exec .encodeN s = .next (s.raise .configError))
  ∧ ∀ (cfg : Config) (s : State), s.busy = false → s.err = false → cfg.maxPixels < s.width.toNat * s.height.toNat →
      execIn cfg .quantize s = .next (s.raise .capacityError)

/-- While BUSY = 1 every write of the host (to any mapped register, to PIX, to DM, any command) is dropped and raises BUSY_ACCESS,
and nothing but ERR and CAUSE changes: the operation in progress is not disturbed. Reads raise nothing. -/
def Obligations.BusyBlockDropsEveryWrite : Prop :=
  ∀ s : State, s.busy = true →
    let dropped := { s with err := true, cause := if s.cause = 0 then 3 else s.cause }
    (∀ (r : BitVec 8) (v : Word), registerMapped Config.btq r = true → exec (.wr r v) s = .next dropped)
    ∧ (∀ (i : BitVec 32) (v : Word), i.toNat < 4294836225 → exec (.pixw i v) s = .next dropped)
    ∧ (∀ (a : BitVec 27) (v : Word), a.toNat < 134213633 → exec (.dmw a v) s = .next dropped)
    ∧ (∀ c : Byte, exec (.cmd c) s = .next dropped)
    ∧ exec .quantize s = .next dropped ∧ exec .encodeN s = .next dropped ∧ exec .encode2W s = .next dropped
    ∧ exec .encode2H s = .next dropped ∧ exec .encodeQ s = .next dropped
    ∧ (∀ low, exec (.encodeUnknown4to7 low) s = .next dropped)
    ∧ (∀ low, exec (.encodeUnknown8to15 low) s = .next dropped)
    ∧ ∀ (i : Instr) (t : State), ((∃ r, i = .rd r) ∨ (∃ n, i = .pixr n) ∨ ∃ a, i = .dmr a) → exec i s = .next t →
        t = { s with readData := t.readData, draws := t.draws }

/-- An idle block with ERR = 1 drops every command silently: no state changes at all. -/
def Obligations.FaultedBlockDropsCommands : Prop :=
  ∀ s : State, s.busy = false → s.err = true →
    (∀ c : Byte, exec (.cmd c) s = .next s) ∧ exec .quantize s = .next s ∧ exec .encodeN s = .next s
    ∧ exec .encode2W s = .next s ∧ exec .encode2H s = .next s ∧ exec .encodeQ s = .next s
    ∧ (∀ low, exec (.encodeUnknown4to7 low) s = .next s) ∧ ∀ low, exec (.encodeUnknown8to15 low) s = .next s

/-- No move but RESET clears ERR, or changes a CAUSE that is not 0; and once the running operation, if any, has finished, a faulted
block starts none and OUT does not grow. -/
def Obligations.FaultSticksUntilReset : Prop :=
  ∀ (i : Instr) (s t : State), i ≠ .reset → exec i s = .next t →
    (s.err = true → t.err = true) ∧ (s.cause ≠ 0 → t.cause = s.cause)
    ∧ (s.err = true → s.phase = .idle → t.phase = .idle ∧ t.out = s.out)

/-! ### Who writes what -/

/-- OUT only grows, by one byte at a time, only when the sink accepts, and by the byte the block was offering; only RESET empties
it. -/
def Obligations.OutGrowsOnlyWhenTheSinkAccepts : Prop :=
  ∀ (i : Instr) (s t : State), exec i s = .next t →
    (i = .sinkAccept → ∃ b, offered Config.btq s = .next b ∧ t.out = s.out ++ [b])
    ∧ (i = .reset → t.out = [])
    ∧ (i ≠ .sinkAccept → i ≠ .reset → t.out = s.out)

/-- Apart from RESET, only WR changes the operand registers and the command-set store, only PIXW changes PIX, and only DMW and QSTEP
change DM. Of the model's own fields: only RD, PIXR and DMR change what the host has read (readData, log 9), and no move changes the
moves to come (agenda, log 1) or the count of resets (epoch, log 7). -/
def Obligations.OnlyTheNamedMovesWrite : Prop :=
  ∀ (i : Instr) (s t : State), i ≠ .reset → exec i s = .next t →
    ((∀ r v, i ≠ .wr r v) → t.width = s.width ∧ t.height = s.height ∧ t.threshold = s.threshold
        ∧ t.cmdLen = s.cmdLen ∧ t.cmdByte = s.cmdByte)
    ∧ ((∀ n v, i ≠ .pixw n v) → t.pix = s.pix)
    ∧ ((∀ a v, i ≠ .dmw a v) → i ≠ .qstep → t.dm = s.dm)
    ∧ ((∀ r, i ≠ .rd r) → (∀ n, i ≠ .pixr n) → (∀ a, i ≠ .dmr a) → t.readData = s.readData)
    ∧ t.agenda = s.agenda ∧ t.epoch = s.epoch

/-- Which moves change the flags and CAUSE, RESET apart: BUSY rises only by a command write, on an idle block without fault, that
clears DONE and starts the sequencer; BUSY falls only by the last SINK.ACCEPT or QSTEP, with DONE <- 1 and PHASE <- IDLE; DONE rises
only by those two or by a command that completes at its acceptance, and falls only with BUSY rising; ERR and CAUSE change only by a
write of the host, ERR from 0 to 1, and CAUSE from 0 to a code of 1 to 4. -/
def Obligations.OnlyTheNamedMovesChangeTheFlags : Prop :=
  ∀ (i : Instr) (s t : State), i ≠ .reset → exec i s = .next t →
    (s.busy = false → t.busy = true →
        commandWrite i = true ∧ s.err = false ∧ t.done = false ∧ (t.phase = .qRun ∨ t.phase = .eLs))
    ∧ (s.busy = true → t.busy = false → (i = .sinkAccept ∨ i = .qstep) ∧ t.done = true ∧ t.phase = .idle)
    ∧ (s.done = false → t.done = true → (i = .sinkAccept ∨ i = .qstep ∨ commandWrite i = true) ∧ t.busy = false)
    ∧ (s.done = true → t.done = false → commandWrite i = true ∧ s.busy = false ∧ t.busy = true)
    ∧ (t.err ≠ s.err → hostWrite i = true ∧ s.err = false ∧ t.err = true)
    ∧ (t.cause ≠ s.cause →
        hostWrite i = true ∧ s.cause = 0 ∧ 1 ≤ t.cause.toNat ∧ t.cause.toNat ≤ 4 ∧ t.err = true)

/-- The offered byte stays the same until it is accepted: while an ENCODE runs, no move but SINK.ACCEPT and RESET changes the byte
offered or the phase. -/
def Obligations.OfferedByteIsHeld : Prop :=
  ∀ (i : Instr) (s t : State), s.busy = true → s.phase.emitting = true → i ≠ .sinkAccept → i ≠ .reset →
    exec i s = .next t → offered Config.btq t = offered Config.btq s ∧ t.phase = s.phase

/-! ### QUANTIZE -/

/-- R95: the luminance is the floor of the source's formula over the rationals, in integers a quotient by 100 of a sum of at most
25500, and it is what this hardware takes of a sample. -/
def Obligations.LuminanceIsTheFormulaFloored : Prop :=
  (∀ r g b : Byte,
    (lumaExact r g b : Int) = ⌊(3 / 10 : ℚ) * r.toNat + 59 / 100 * g.toNat + 11 / 100 * b.toNat⌋
    ∧ lumaExact r g b = (30 * r.toNat + 59 * g.toNat + 11 * b.toNat) / 100
    ∧ 30 * r.toNat + 59 * g.toNat + 11 * b.toNat ≤ 25500)
  ∧ ∀ p : Word, sampleLuma Config.btq p = lumaExact (p.extractLsb' 0 8) (p.extractLsb' 8 8) (p.extractLsb' 16 8)

/-- R97: the dot is 1 if and only if L > THRESHOLD: equality gives 0, THRESHOLD = 255 never gives 1, THRESHOLD = 0 gives 1 exactly
for L ≥ 1. -/
def Obligations.ThresholdIsStrict : Prop :=
  ∀ (threshold : BitVec 8) (p : Word),
    (dotOf Config.btq threshold p = true ↔ threshold.toNat < sampleLuma Config.btq p)
    ∧ (sampleLuma Config.btq p = threshold.toNat → dotOf Config.btq threshold p = false)
    ∧ (threshold = 255 → dotOf Config.btq threshold p = false)
    ∧ (threshold = 0 → (dotOf Config.btq threshold p = true ↔ 1 ≤ sampleLuma Config.btq p))

/-- R106: two samples that differ only in the A lane give the same dot. -/
def Obligations.AlphaIsIgnored : Prop :=
  ∀ (threshold : BitVec 8) (p q : Word), (∀ n, n < 24 → p.getLsbD n = q.getLsbD n) →
    dotOf Config.btq threshold p = dotOf Config.btq threshold q

/-- The alternative evaluation in binary64 (general knowledge, log 18) gives the exact luminance or one less, and one less only
where 30·R + 59·G + 11·B is a multiple of 100. -/
def Obligations.Binary64LuminanceIsAtMostOneLess : Prop :=
  ∀ r g b : Byte,
    lumaBinary64 r g b = lumaExact r g b
    ∨ (lumaBinary64 r g b + 1 = lumaExact r g b ∧ (30 * r.toNat + 59 * g.toNat + 11 * b.toNat) % 100 = 0)

/-- One QSTEP thresholds pixel I, puts its dot into bit I mod 32 of the word, writes the word at I div 32 when it is full or the pixel
is the last, and completes in the step of the last pixel; nothing else changes. -/
def Obligations.QstepThresholdsOnePixel : Prop :=
  ∀ s : State, s.phase = .qRun → s.i.toNat < 4294836225 →
    let p := s.readPix s.i.toNat
    let luminance := (30 * (p.extractLsb' 0 8).toNat + 59 * (p.extractLsb' 8 8).toNat + 11 * (p.extractLsb' 16 8).toNat) / 100
    let acc : Word := s.acc ||| ((if s.threshold.toNat < luminance then 1 else 0) <<< (s.i.toNat % 32))
    let last := s.i.toNat + 1 = s.width.toNat * s.height.toNat
    let full := s.i.toNat % 32 = 31 ∨ last
    ∃ t, exec .qstep s = .next t
      ∧ t = { s with
          dm := t.dm, acc := t.acc, i := t.i, phase := t.phase, busy := t.busy, done := t.done }
      ∧ (full → t.acc = 0 ∧ ∀ a, t.readDm a = if a = s.i.toNat / 32 then acc else s.readDm a)
      ∧ (¬ full → t.acc = acc ∧ t.dm = s.dm)
      ∧ (last → t.i = s.i ∧ t.phase = .idle ∧ t.busy = false ∧ t.done = true)
      ∧ (¬ last → t.i = s.i + 1 ∧ t.phase = .qRun ∧ t.busy = s.busy ∧ t.done = s.done)

/-- An accepted QUANTIZE with N ≥ 1 is busy for exactly N QSTEPs and then has written the matrix: below 32·NW every bit is pixel p's dot
for p < N and 0 beyond (the pad bits), the words at and beyond NW keep their value, and nothing else has changed but DM, DONE and
the sequencer's I and ACC. -/
def Obligations.QuantizeWritesTheMatrix : Prop :=
  ∀ s t : State, s.busy = false → s.err = false → s.width.toNat * s.height.toNat ≠ 0 → exec .quantize s = .next t →
    (∀ k, k < s.width.toNat * s.height.toNat → ∃ v, repeatMove k .qstep t = .next v ∧ v.busy = true)
    ∧ ∃ u, repeatMove (s.width.toNat * s.height.toNat) .qstep t = .next u
      ∧ u = { s with done := true, phase := .idle, dm := u.dm, i := u.i, acc := u.acc }
      ∧ (∀ p, p < 32 * s.matrixWords → (u.readDm (p / 32)).getLsbD (p % 32) =
          (decide (p < s.width.toNat * s.height.toNat)
            && decide (s.threshold.toNat < sampleLuma Config.btq (s.readPix p))))
      ∧ ∀ a, s.matrixWords ≤ a → u.readDm a = s.readDm a

/-- After a QUANTIZE a data byte says of each of its rows whether that row is in the matrix and its pixel is brighter than the
threshold: reading the dots back undoes the packing. -/
def Obligations.DataByteShowsThePixels : Prop :=
  ∀ s t u : State, s.busy = false → s.err = false → s.width.toNat * s.height.toNat ≠ 0 → exec .quantize s = .next t →
    repeatMove (s.width.toNat * s.height.toNat) .qstep t = .next u →
    ∀ x r0 b, x < s.width.toNat → b < 8 →
      (u.colByte x r0).getLsbD (7 - b) =
        (decide (r0 + b < s.height.toNat)
          && decide (s.threshold.toNat < sampleLuma Config.btq (s.readPix ((r0 + b) * s.width.toNat + x))))

/-! ### The band packer and ENCODE -/

/-- R110: bit 7 − b of COLBYTE(x, r0) is the dot of row r0 + b if that row is below HEIGHT and 0 otherwise; equivalently the sum of
those dots with weights 2^(7 − b). -/
def Obligations.ColByteHasTheTopRowFirst : Prop :=
  ∀ (w h x r0 : Nat) (dm : Nat → Word), x < w →
    (∀ b, b < 8 → (colByte w h dm x r0).getLsbD (7 - b) =
      if r0 + b < h then (dm (((r0 + b) * w + x) / 32)).getLsbD (((r0 + b) * w + x) % 32) else false)
    ∧ (colByte w h dm x r0).toNat =
        ((List.range 8).map fun b =>
          if r0 + b < h ∧ (dm (((r0 + b) * w + x) / 32)).getLsbD (((r0 + b) * w + x) % 32) = true then 2 ^ (7 - b)
          else 0).sum

/-- R136: SINK.ACCEPT in each phase: the byte appended to OUT and the sequencer's transition; in any other phase it has no next state.
The size opcode is the entry 1 + MODE_L. J is the index of a byte register and X of a column, which 10_state.md R40 says of every
reachable state; MovesThatCannotHappenStop is about the others (logs 15 and 16). -/
def Obligations.SinkAcceptTakesEachTransition : Prop :=
  ∀ s : State,
    let len := fun n : Fin 8 => (s.cmdLen.get n).toNat
    let stored := fun n : Fin 8 => s.out ++ [(s.cmdByte.get n).get s.j.toFin]
    let size : Fin 8 := if s.modeL = 0 then 1 else if s.modeL = 1 then 2 else if s.modeL = 2 then 3 else 4
    let bop : Fin 8 := if s.fast = true then 5 else 6
    (∀ t, exec .sinkAccept s = .next t → s.phase ≠ .idle ∧ s.phase ≠ .qRun)
    ∧ (s.phase = .eLs → s.j.toNat < 8 → exec .sinkAccept s = .next (
        if s.j.toNat + 1 = len 0 then { s with out := stored 0, j := 0, phase := .eLs24 }
        else { s with out := stored 0, j := s.j + 1 }))
    ∧ (s.phase = .eLs24 → exec .sinkAccept s = .next { s with out := s.out ++ [0x18], phase := .eSize })
    ∧ (s.phase = .eSize → s.j.toNat < 8 → exec .sinkAccept s = .next (
        if s.j.toNat + 1 = len size then
          (if s.width = 0 ∨ s.height = 0 then
            { s with out := stored size, j := 0, phase := .idle, busy := false, done := true }
          else { s with out := stored size, j := 0, phase := .eBop })
        else { s with out := stored size, j := s.j + 1 }))
    ∧ (s.phase = .eBop → s.j.toNat < 8 → exec .sinkAccept s = .next (
        if s.j.toNat + 1 = len bop then { s with out := stored bop, j := 0, phase := .eWlo }
        else { s with out := stored bop, j := s.j + 1 }))
    ∧ (s.phase = .eWlo → exec .sinkAccept s =
        .next { s with out := s.out ++ [s.width.extractLsb' 0 8], phase := .eWhi })
    ∧ (s.phase = .eWhi → exec .sinkAccept s =
        .next { s with out := s.out ++ [s.width.extractLsb' 8 8], x := 0, k := 0, phase := .eData })
    ∧ (s.phase = .eData → s.fast = true → s.x.toNat < s.width.toNat →
        let sent := s.out ++ [colByte s.width.toNat s.height.toNat s.readDm s.x.toNat 0]
        exec .sinkAccept s = .next (
          if s.x.toNat + 1 = s.width.toNat then { s with out := sent, phase := .idle, busy := false, done := true }
          else { s with out := sent, x := s.x + 1 }))
    ∧ (s.phase = .eData → s.fast = false → s.x.toNat < s.width.toNat →
        let sent := s.out ++
          [colByte s.width.toNat s.height.toNat s.readDm s.x.toNat (s.offset.toNat + 8 * s.k.toNat)]
        exec .sinkAccept s = .next (
          if s.k.toNat < 2 then { s with out := sent, k := s.k + 1 }
          else if s.x.toNat + 1 = s.width.toNat then { s with out := sent, k := 0, j := 0, phase := .eLf }
          else { s with out := sent, k := 0, x := s.x + 1 }))
    ∧ (s.phase = .eLf → s.j.toNat < 8 → exec .sinkAccept s = .next (
        if s.j.toNat + 1 = len 7 then
          (if s.offset.toNat + 24 < s.height.toNat then
            { s with out := stored 7, j := 0, offset := s.offset + 24, phase := .eBop }
          else { s with
            out := stored 7, j := 0, offset := s.offset + 24, phase := .idle, busy := false, done := true })
        else { s with out := stored 7, j := s.j + 1 }))

/-- The model's own stops (logs 15 and 16). SINK.ACCEPT in IDLE or Q_RUN and QSTEP outside Q_RUN are refused, since the spec says
they are not enabled; SINK.ACCEPT with a J that is no byte register or an X that is no column, and QSTEP with an I that is no pixel
of PIX, end in a fault by name, in states no run reaches. -/
def Obligations.MovesThatCannotHappenStop : Prop :=
  ∀ s : State,
    let size : Fin 8 := if s.modeL = 0 then 1 else if s.modeL = 1 then 2 else if s.modeL = 2 then 3 else 4
    (s.phase = .idle ∨ s.phase = .qRun → exec .sinkAccept s = .refused .nothingOffered)
    ∧ (s.phase ≠ .qRun → exec .qstep s = .refused .notQuantizing)
    ∧ (8 ≤ s.j.toNat →
        (s.phase = .eLs → exec .sinkAccept s = .fault (.cmdByteAbsent 0 s.j))
        ∧ (s.phase = .eSize → exec .sinkAccept s = .fault (.cmdByteAbsent size s.j))
        ∧ (s.phase = .eBop → s.fast = true → exec .sinkAccept s = .fault (.cmdByteAbsent 5 s.j))
        ∧ (s.phase = .eBop → s.fast = false → exec .sinkAccept s = .fault (.cmdByteAbsent 6 s.j))
        ∧ (s.phase = .eLf → exec .sinkAccept s = .fault (.cmdByteAbsent 7 s.j)))
    ∧ (s.phase = .eData → s.width.toNat ≤ s.x.toNat → exec .sinkAccept s = .fault (.colByteUndefined s.x))
    ∧ (s.phase = .qRun → 4294836225 ≤ s.i.toNat → exec .qstep s = .fault (.pixelAbsent s.i))

/-- The one thing in which the ENCODE commands differ: after LS_SET and the literal 0x18, ENCODE.N emits entry 1, ENCODE.2W entry 2,
ENCODE.2H entry 3, ENCODE.Q entry 4, and an unknown mode entry 1, as the first bytes the sink takes. -/
def Obligations.SizeOpcodeIsChosenByTheMode : Prop :=
  ∀ s : State, s.busy = false → s.err = false →
    (∀ n : Fin 8, 1 ≤ (s.cmdLen.get n).toNat ∧ (s.cmdLen.get n).toNat ≤ 8) →
    let opens := fun (i : Instr) (n : Fin 8) =>
      ∃ t u, exec i s = .next t ∧ repeatMove ((s.cmdStr 0).length + 1 + (s.cmdStr n).length) .sinkAccept t = .next u
        ∧ u.out = s.out ++ (s.cmdStr 0 ++ [0x18] ++ s.cmdStr n)
    opens .encodeN 1 ∧ opens .encode2W 2 ∧ opens .encode2H 3 ∧ opens .encodeQ 4
      ∧ (∀ low, opens (.encodeUnknown4to7 low) 1) ∧ ∀ low, opens (.encodeUnknown8to15 low) 1

/-- An accepted ENCODE, whatever the word, emits exactly the stream of the matrix, mode and command set as they stood: it is busy for as
many SINK.ACCEPTs as the stream is long, after k of them OUT has grown by the first k bytes, and after the last one it has completed
with nothing changed but OUT, DONE and the sequencer. -/
def Obligations.EncodeEmitsTheStream : Prop :=
  ∀ (c : Byte) (s t : State), s.busy = false → s.err = false → c.extractLsb' 4 4 = 2 →
    (∀ n : Fin 8, 1 ≤ (s.cmdLen.get n).toNat ∧ (s.cmdLen.get n).toNat ≤ 8) →
    exec (.cmd c) s = .next t →
    let bytes := encodeStream Config.btq s.width s.height s.readDm (effectiveMode (c.extractLsb' 0 4)) s.cmdStr
    (∀ k, k < bytes.length →
      ∃ v, repeatMove k .sinkAccept t = .next v ∧ v.busy = true ∧ v.out = s.out ++ bytes.take k)
    ∧ ∃ u, repeatMove bytes.length .sinkAccept t = .next u
      ∧ u = { s with
          done := true, phase := .idle, out := s.out ++ bytes
          modeL := u.modeL, fast := u.fast, offset := u.offset, x := u.x, k := u.k, j := u.j }

/-- R143: two accepted ENCODE commands with the same matrix, effective mode and command set append the same bytes, whatever an earlier
operation left in the sequencer, the pixels, the threshold or OUT. -/
def Obligations.EqualInputsGiveEqualStreams : Prop :=
  ∀ (c c' : Byte) (s s' t t' : State),
    s.busy = false → s.err = false → s'.busy = false → s'.err = false →
    c.extractLsb' 4 4 = 2 → c'.extractLsb' 4 4 = 2 →
    effectiveMode (c.extractLsb' 0 4) = effectiveMode (c'.extractLsb' 0 4) →
    sameMatrix s s' → s.cmdLen = s'.cmdLen → s.cmdByte = s'.cmdByte →
    (∀ n : Fin 8, 1 ≤ (s.cmdLen.get n).toNat ∧ (s.cmdLen.get n).toNat ≤ 8) →
    exec (.cmd c) s = .next t → exec (.cmd c') s' = .next t' →
    ∃ (bytes : List Byte) (u u' : State),
      repeatMove bytes.length .sinkAccept t = .next u ∧ repeatMove bytes.length .sinkAccept t' = .next u'
      ∧ u.phase = .idle ∧ u'.phase = .idle ∧ u.out = s.out ++ bytes ∧ u'.out = s'.out ++ bytes

/-- The length of a stream is the formula of 30_encoding.md section 4, under all parameters: it depends on the dimensions, the mode and
the lengths of the stored strings (the size opcode's is entry 1 + m), never on the dots; and a stored string is as long as its length register says. -/
def Obligations.StreamLengthNeverDependsOnDots : Prop :=
  (∀ (cfg : Config) (w h : BitVec 16) (dm : Nat → Word) (m : BitVec 2) (cs : Fin 8 → List Byte),
    let size : Fin 8 := if m = 0 then 1 else if m = 1 then 2 else if m = 2 then 3 else 4
    (encodeStream cfg w h dm m cs).length =
      if w = 0 ∨ h = 0 then
        (if cfg.degenerate = .nothing then 0 else (cs 0).length + 1 + (cs size).length)
      else if h.toNat ≤ 8 then
        (cs 0).length + 1 + (cs size).length + (cs 5).length + 2 + w.toNat
      else
        (cs 0).length + 1 + (cs size).length
          + (h.toNat + 23) / 24 * ((cs 6).length + 2 + 3 * w.toNat + (cs 7).length))
  ∧ ∀ (s : State) (n : Fin 8), (s.cmdStr n).length = (s.cmdLen.get n).toNat

/-- Pad bits and words beyond the matrix cannot influence any emitted byte: two memories that agree on the dots below N give the same
stream. -/
def Obligations.PadBitsNeverReachTheStream : Prop :=
  ∀ (cfg : Config) (w h : BitVec 16) (dm dm' : Nat → Word) (m : BitVec 2) (cs : Fin 8 → List Byte),
    (∀ p, p < w.toNat * h.toNat → (dm (p / 32)).getLsbD (p % 32) = (dm' (p / 32)).getLsbD (p % 32)) →
    encodeStream cfg w h dm m cs = encodeStream cfg w h dm' m cs

/-- OFFSET never wraps: where the invariant holds an accepted byte leaves it or adds 24 exactly, and leaves it at most 65544. -/
def Obligations.OffsetNeverWraps : Prop :=
  ∀ s t : State, s.Inv Config.btq → exec .sinkAccept s = .next t →
    t.offset.toNat ≤ 65544 ∧ (t.offset.toNat = s.offset.toNat ∨ t.offset.toNat = s.offset.toNat + 24)

/-! ### Invariants and safety -/

/-- Every step keeps the invariant: the eight clauses of 10_state.md section 10, what they rest on, and the canonical form of the
memories. -/
def Obligations.EveryStepKeepsTheInvariant : Prop :=
  ∀ s t : State, s.Inv Config.btq → step s = .next t → t.Inv Config.btq

/-- The machine right after reset meets the invariant. -/
def Obligations.ResetMeetsTheInvariant : Prop := State.reset.Inv Config.btq

/-- Where the invariant holds no move faults, and every well-formed move that is enabled (SINK.ACCEPT while a byte is offered, QSTEP
while PHASE = Q_RUN) goes on: an accepted operation has no failure path. -/
def Obligations.EnabledMovesGoOn : Prop :=
  ∀ (i : Instr) (s : State), s.Inv Config.btq →
    (∀ f, exec i s ≠ .fault f)
    ∧ (i.wf = true → (i = .sinkAccept → s.phase.emitting = true) → (i = .qstep → s.phase = .qRun) →
        ∃ t, exec i s = .next t)

/-- Equal memories are equal data: two memories in canonical form that read alike at every index are the same list (log 11). -/
def Obligations.CanonicalMemoriesReadAlikeAreEqual : Prop :=
  ∀ m m' : Memory, m.wf = true → m'.wf = true → (∀ i, Memory.read m i = Memory.read m' i) → m = m'

/-- A run has ended well exactly when BUSY = 0, DONE = 1, ERR = 0 and no move is left to make (DONE: log 20; no move left: log 1); no
such state is pending or gone wrong, and where the invariant holds it stays as it is (log 2). The reset state is no such end. -/
def Obligations.AnEndedRunStaysEnded : Prop :=
  (∀ s : State, s.endedWell = true ↔ s.busy = false ∧ s.done = true ∧ s.err = false ∧ s.agenda = [])
  ∧ (∀ s : State, s.endedWell = true → s.pending = false ∧ s.endedWrong = false)
  ∧ (∀ s : State, s.Inv Config.btq → s.endedWell = true → step s = .next s)
  ∧ State.reset.endedWell = false
end

