-- ==== Sys2Proof/Laws/State.lean ====
section
/-! SUPPORT. What each named update of the state does to each field: one lemma a field, true by rfl. -/

namespace Sys2Proof.Machine

variable (s : State)

/-! `State.writePix` -/

@[simp] theorem State.writePix_width (n : Nat) (v : Word) : (s.writePix n v).width = s.width := rfl
@[simp] theorem State.writePix_height (n : Nat) (v : Word) : (s.writePix n v).height = s.height := rfl
@[simp] theorem State.writePix_threshold (n : Nat) (v : Word) : (s.writePix n v).threshold = s.threshold := rfl
@[simp] theorem State.writePix_busy (n : Nat) (v : Word) : (s.writePix n v).busy = s.busy := rfl
@[simp] theorem State.writePix_done (n : Nat) (v : Word) : (s.writePix n v).done = s.done := rfl
@[simp] theorem State.writePix_err (n : Nat) (v : Word) : (s.writePix n v).err = s.err := rfl
@[simp] theorem State.writePix_cause (n : Nat) (v : Word) : (s.writePix n v).cause = s.cause := rfl
@[simp] theorem State.writePix_cmdLen (n : Nat) (v : Word) : (s.writePix n v).cmdLen = s.cmdLen := rfl
@[simp] theorem State.writePix_cmdByte (n : Nat) (v : Word) : (s.writePix n v).cmdByte = s.cmdByte := rfl
@[simp] theorem State.writePix_pix (n : Nat) (v : Word) : (s.writePix n v).pix = Memory.write s.pix n v := rfl
@[simp] theorem State.writePix_dm (n : Nat) (v : Word) : (s.writePix n v).dm = s.dm := rfl
@[simp] theorem State.writePix_phase (n : Nat) (v : Word) : (s.writePix n v).phase = s.phase := rfl
@[simp] theorem State.writePix_i (n : Nat) (v : Word) : (s.writePix n v).i = s.i := rfl
@[simp] theorem State.writePix_acc (n : Nat) (v : Word) : (s.writePix n v).acc = s.acc := rfl
@[simp] theorem State.writePix_offset (n : Nat) (v : Word) : (s.writePix n v).offset = s.offset := rfl
@[simp] theorem State.writePix_x (n : Nat) (v : Word) : (s.writePix n v).x = s.x := rfl
@[simp] theorem State.writePix_k (n : Nat) (v : Word) : (s.writePix n v).k = s.k := rfl
@[simp] theorem State.writePix_j (n : Nat) (v : Word) : (s.writePix n v).j = s.j := rfl
@[simp] theorem State.writePix_modeL (n : Nat) (v : Word) : (s.writePix n v).modeL = s.modeL := rfl
@[simp] theorem State.writePix_fast (n : Nat) (v : Word) : (s.writePix n v).fast = s.fast := rfl
@[simp] theorem State.writePix_out (n : Nat) (v : Word) : (s.writePix n v).out = s.out := rfl
@[simp] theorem State.writePix_agenda (n : Nat) (v : Word) : (s.writePix n v).agenda = s.agenda := rfl
@[simp] theorem State.writePix_readData (n : Nat) (v : Word) : (s.writePix n v).readData = s.readData := rfl
@[simp] theorem State.writePix_epoch (n : Nat) (v : Word) : (s.writePix n v).epoch = s.epoch := rfl
@[simp] theorem State.writePix_draws (n : Nat) (v : Word) : (s.writePix n v).draws = s.draws := rfl

/-! `State.writeDm` -/

@[simp] theorem State.writeDm_width (a : Nat) (v : Word) : (s.writeDm a v).width = s.width := rfl
@[simp] theorem State.writeDm_height (a : Nat) (v : Word) : (s.writeDm a v).height = s.height := rfl
@[simp] theorem State.writeDm_threshold (a : Nat) (v : Word) : (s.writeDm a v).threshold = s.threshold := rfl
@[simp] theorem State.writeDm_busy (a : Nat) (v : Word) : (s.writeDm a v).busy = s.busy := rfl
@[simp] theorem State.writeDm_done (a : Nat) (v : Word) : (s.writeDm a v).done = s.done := rfl
@[simp] theorem State.writeDm_err (a : Nat) (v : Word) : (s.writeDm a v).err = s.err := rfl
@[simp] theorem State.writeDm_cause (a : Nat) (v : Word) : (s.writeDm a v).cause = s.cause := rfl
@[simp] theorem State.writeDm_cmdLen (a : Nat) (v : Word) : (s.writeDm a v).cmdLen = s.cmdLen := rfl
@[simp] theorem State.writeDm_cmdByte (a : Nat) (v : Word) : (s.writeDm a v).cmdByte = s.cmdByte := rfl
@[simp] theorem State.writeDm_pix (a : Nat) (v : Word) : (s.writeDm a v).pix = s.pix := rfl
@[simp] theorem State.writeDm_dm (a : Nat) (v : Word) : (s.writeDm a v).dm = Memory.write s.dm a v := rfl
@[simp] theorem State.writeDm_phase (a : Nat) (v : Word) : (s.writeDm a v).phase = s.phase := rfl
@[simp] theorem State.writeDm_i (a : Nat) (v : Word) : (s.writeDm a v).i = s.i := rfl
@[simp] theorem State.writeDm_acc (a : Nat) (v : Word) : (s.writeDm a v).acc = s.acc := rfl
@[simp] theorem State.writeDm_offset (a : Nat) (v : Word) : (s.writeDm a v).offset = s.offset := rfl
@[simp] theorem State.writeDm_x (a : Nat) (v : Word) : (s.writeDm a v).x = s.x := rfl
@[simp] theorem State.writeDm_k (a : Nat) (v : Word) : (s.writeDm a v).k = s.k := rfl
@[simp] theorem State.writeDm_j (a : Nat) (v : Word) : (s.writeDm a v).j = s.j := rfl
@[simp] theorem State.writeDm_modeL (a : Nat) (v : Word) : (s.writeDm a v).modeL = s.modeL := rfl
@[simp] theorem State.writeDm_fast (a : Nat) (v : Word) : (s.writeDm a v).fast = s.fast := rfl
@[simp] theorem State.writeDm_out (a : Nat) (v : Word) : (s.writeDm a v).out = s.out := rfl
@[simp] theorem State.writeDm_agenda (a : Nat) (v : Word) : (s.writeDm a v).agenda = s.agenda := rfl
@[simp] theorem State.writeDm_readData (a : Nat) (v : Word) : (s.writeDm a v).readData = s.readData := rfl
@[simp] theorem State.writeDm_epoch (a : Nat) (v : Word) : (s.writeDm a v).epoch = s.epoch := rfl
@[simp] theorem State.writeDm_draws (a : Nat) (v : Word) : (s.writeDm a v).draws = s.draws := rfl

/-! `State.setLen` -/

@[simp] theorem State.setLen_width (n : Fin 8) (v : BitVec 4) : (s.setLen n v).width = s.width := rfl
@[simp] theorem State.setLen_height (n : Fin 8) (v : BitVec 4) : (s.setLen n v).height = s.height := rfl
@[simp] theorem State.setLen_threshold (n : Fin 8) (v : BitVec 4) : (s.setLen n v).threshold = s.threshold := rfl
@[simp] theorem State.setLen_busy (n : Fin 8) (v : BitVec 4) : (s.setLen n v).busy = s.busy := rfl
@[simp] theorem State.setLen_done (n : Fin 8) (v : BitVec 4) : (s.setLen n v).done = s.done := rfl
@[simp] theorem State.setLen_err (n : Fin 8) (v : BitVec 4) : (s.setLen n v).err = s.err := rfl
@[simp] theorem State.setLen_cause (n : Fin 8) (v : BitVec 4) : (s.setLen n v).cause = s.cause := rfl
@[simp] theorem State.setLen_cmdLen (n : Fin 8) (v : BitVec 4) : (s.setLen n v).cmdLen = s.cmdLen.set n v := rfl
@[simp] theorem State.setLen_cmdByte (n : Fin 8) (v : BitVec 4) : (s.setLen n v).cmdByte = s.cmdByte := rfl
@[simp] theorem State.setLen_pix (n : Fin 8) (v : BitVec 4) : (s.setLen n v).pix = s.pix := rfl
@[simp] theorem State.setLen_dm (n : Fin 8) (v : BitVec 4) : (s.setLen n v).dm = s.dm := rfl
@[simp] theorem State.setLen_phase (n : Fin 8) (v : BitVec 4) : (s.setLen n v).phase = s.phase := rfl
@[simp] theorem State.setLen_i (n : Fin 8) (v : BitVec 4) : (s.setLen n v).i = s.i := rfl
@[simp] theorem State.setLen_acc (n : Fin 8) (v : BitVec 4) : (s.setLen n v).acc = s.acc := rfl
@[simp] theorem State.setLen_offset (n : Fin 8) (v : BitVec 4) : (s.setLen n v).offset = s.offset := rfl
@[simp] theorem State.setLen_x (n : Fin 8) (v : BitVec 4) : (s.setLen n v).x = s.x := rfl
@[simp] theorem State.setLen_k (n : Fin 8) (v : BitVec 4) : (s.setLen n v).k = s.k := rfl
@[simp] theorem State.setLen_j (n : Fin 8) (v : BitVec 4) : (s.setLen n v).j = s.j := rfl
@[simp] theorem State.setLen_modeL (n : Fin 8) (v : BitVec 4) : (s.setLen n v).modeL = s.modeL := rfl
@[simp] theorem State.setLen_fast (n : Fin 8) (v : BitVec 4) : (s.setLen n v).fast = s.fast := rfl
@[simp] theorem State.setLen_out (n : Fin 8) (v : BitVec 4) : (s.setLen n v).out = s.out := rfl
@[simp] theorem State.setLen_agenda (n : Fin 8) (v : BitVec 4) : (s.setLen n v).agenda = s.agenda := rfl
@[simp] theorem State.setLen_readData (n : Fin 8) (v : BitVec 4) : (s.setLen n v).readData = s.readData := rfl
@[simp] theorem State.setLen_epoch (n : Fin 8) (v : BitVec 4) : (s.setLen n v).epoch = s.epoch := rfl
@[simp] theorem State.setLen_draws (n : Fin 8) (v : BitVec 4) : (s.setLen n v).draws = s.draws := rfl

/-! `State.setByte` -/

@[simp] theorem State.setByte_width (n : Fin 8) (m : Fin 16) (v : Byte) : (s.setByte n m v).width = s.width := rfl
@[simp] theorem State.setByte_height (n : Fin 8) (m : Fin 16) (v : Byte) : (s.setByte n m v).height = s.height := rfl
@[simp] theorem State.setByte_threshold (n : Fin 8) (m : Fin 16) (v : Byte) : (s.setByte n m v).threshold = s.threshold := rfl
@[simp] theorem State.setByte_busy (n : Fin 8) (m : Fin 16) (v : Byte) : (s.setByte n m v).busy = s.busy := rfl
@[simp] theorem State.setByte_done (n : Fin 8) (m : Fin 16) (v : Byte) : (s.setByte n m v).done = s.done := rfl
@[simp] theorem State.setByte_err (n : Fin 8) (m : Fin 16) (v : Byte) : (s.setByte n m v).err = s.err := rfl
@[simp] theorem State.setByte_cause (n : Fin 8) (m : Fin 16) (v : Byte) : (s.setByte n m v).cause = s.cause := rfl
@[simp] theorem State.setByte_cmdLen (n : Fin 8) (m : Fin 16) (v : Byte) : (s.setByte n m v).cmdLen = s.cmdLen := rfl
@[simp] theorem State.setByte_cmdByte (n : Fin 8) (m : Fin 16) (v : Byte) : (s.setByte n m v).cmdByte = s.cmdByte.set n ((s.cmdByte.get n).set m v) := rfl
@[simp] theorem State.setByte_pix (n : Fin 8) (m : Fin 16) (v : Byte) : (s.setByte n m v).pix = s.pix := rfl
@[simp] theorem State.setByte_dm (n : Fin 8) (m : Fin 16) (v : Byte) : (s.setByte n m v).dm = s.dm := rfl
@[simp] theorem State.setByte_phase (n : Fin 8) (m : Fin 16) (v : Byte) : (s.setByte n m v).phase = s.phase := rfl
@[simp] theorem State.setByte_i (n : Fin 8) (m : Fin 16) (v : Byte) : (s.setByte n m v).i = s.i := rfl
@[simp] theorem State.setByte_acc (n : Fin 8) (m : Fin 16) (v : Byte) : (s.setByte n m v).acc = s.acc := rfl
@[simp] theorem State.setByte_offset (n : Fin 8) (m : Fin 16) (v : Byte) : (s.setByte n m v).offset = s.offset := rfl
@[simp] theorem State.setByte_x (n : Fin 8) (m : Fin 16) (v : Byte) : (s.setByte n m v).x = s.x := rfl
@[simp] theorem State.setByte_k (n : Fin 8) (m : Fin 16) (v : Byte) : (s.setByte n m v).k = s.k := rfl
@[simp] theorem State.setByte_j (n : Fin 8) (m : Fin 16) (v : Byte) : (s.setByte n m v).j = s.j := rfl
@[simp] theorem State.setByte_modeL (n : Fin 8) (m : Fin 16) (v : Byte) : (s.setByte n m v).modeL = s.modeL := rfl
@[simp] theorem State.setByte_fast (n : Fin 8) (m : Fin 16) (v : Byte) : (s.setByte n m v).fast = s.fast := rfl
@[simp] theorem State.setByte_out (n : Fin 8) (m : Fin 16) (v : Byte) : (s.setByte n m v).out = s.out := rfl
@[simp] theorem State.setByte_agenda (n : Fin 8) (m : Fin 16) (v : Byte) : (s.setByte n m v).agenda = s.agenda := rfl
@[simp] theorem State.setByte_readData (n : Fin 8) (m : Fin 16) (v : Byte) : (s.setByte n m v).readData = s.readData := rfl
@[simp] theorem State.setByte_epoch (n : Fin 8) (m : Fin 16) (v : Byte) : (s.setByte n m v).epoch = s.epoch := rfl
@[simp] theorem State.setByte_draws (n : Fin 8) (m : Fin 16) (v : Byte) : (s.setByte n m v).draws = s.draws := rfl

/-! `State.returns` -/

@[simp] theorem State.returns_width (v : Word) : (s.returns v).width = s.width := rfl
@[simp] theorem State.returns_height (v : Word) : (s.returns v).height = s.height := rfl
@[simp] theorem State.returns_threshold (v : Word) : (s.returns v).threshold = s.threshold := rfl
@[simp] theorem State.returns_busy (v : Word) : (s.returns v).busy = s.busy := rfl
@[simp] theorem State.returns_done (v : Word) : (s.returns v).done = s.done := rfl
@[simp] theorem State.returns_err (v : Word) : (s.returns v).err = s.err := rfl
@[simp] theorem State.returns_cause (v : Word) : (s.returns v).cause = s.cause := rfl
@[simp] theorem State.returns_cmdLen (v : Word) : (s.returns v).cmdLen = s.cmdLen := rfl
@[simp] theorem State.returns_cmdByte (v : Word) : (s.returns v).cmdByte = s.cmdByte := rfl
@[simp] theorem State.returns_pix (v : Word) : (s.returns v).pix = s.pix := rfl
@[simp] theorem State.returns_dm (v : Word) : (s.returns v).dm = s.dm := rfl
@[simp] theorem State.returns_phase (v : Word) : (s.returns v).phase = s.phase := rfl
@[simp] theorem State.returns_i (v : Word) : (s.returns v).i = s.i := rfl
@[simp] theorem State.returns_acc (v : Word) : (s.returns v).acc = s.acc := rfl
@[simp] theorem State.returns_offset (v : Word) : (s.returns v).offset = s.offset := rfl
@[simp] theorem State.returns_x (v : Word) : (s.returns v).x = s.x := rfl
@[simp] theorem State.returns_k (v : Word) : (s.returns v).k = s.k := rfl
@[simp] theorem State.returns_j (v : Word) : (s.returns v).j = s.j := rfl
@[simp] theorem State.returns_modeL (v : Word) : (s.returns v).modeL = s.modeL := rfl
@[simp] theorem State.returns_fast (v : Word) : (s.returns v).fast = s.fast := rfl
@[simp] theorem State.returns_out (v : Word) : (s.returns v).out = s.out := rfl
@[simp] theorem State.returns_agenda (v : Word) : (s.returns v).agenda = s.agenda := rfl
@[simp] theorem State.returns_readData (v : Word) : (s.returns v).readData = some v := rfl
@[simp] theorem State.returns_epoch (v : Word) : (s.returns v).epoch = s.epoch := rfl
@[simp] theorem State.returns_draws (v : Word) : (s.returns v).draws = s.draws := rfl

/-! `State.emit` -/

@[simp] theorem State.emit_width (b : Byte) : (s.emit b).width = s.width := rfl
@[simp] theorem State.emit_height (b : Byte) : (s.emit b).height = s.height := rfl
@[simp] theorem State.emit_threshold (b : Byte) : (s.emit b).threshold = s.threshold := rfl
@[simp] theorem State.emit_busy (b : Byte) : (s.emit b).busy = s.busy := rfl
@[simp] theorem State.emit_done (b : Byte) : (s.emit b).done = s.done := rfl
@[simp] theorem State.emit_err (b : Byte) : (s.emit b).err = s.err := rfl
@[simp] theorem State.emit_cause (b : Byte) : (s.emit b).cause = s.cause := rfl
@[simp] theorem State.emit_cmdLen (b : Byte) : (s.emit b).cmdLen = s.cmdLen := rfl
@[simp] theorem State.emit_cmdByte (b : Byte) : (s.emit b).cmdByte = s.cmdByte := rfl
@[simp] theorem State.emit_pix (b : Byte) : (s.emit b).pix = s.pix := rfl
@[simp] theorem State.emit_dm (b : Byte) : (s.emit b).dm = s.dm := rfl
@[simp] theorem State.emit_phase (b : Byte) : (s.emit b).phase = s.phase := rfl
@[simp] theorem State.emit_i (b : Byte) : (s.emit b).i = s.i := rfl
@[simp] theorem State.emit_acc (b : Byte) : (s.emit b).acc = s.acc := rfl
@[simp] theorem State.emit_offset (b : Byte) : (s.emit b).offset = s.offset := rfl
@[simp] theorem State.emit_x (b : Byte) : (s.emit b).x = s.x := rfl
@[simp] theorem State.emit_k (b : Byte) : (s.emit b).k = s.k := rfl
@[simp] theorem State.emit_j (b : Byte) : (s.emit b).j = s.j := rfl
@[simp] theorem State.emit_modeL (b : Byte) : (s.emit b).modeL = s.modeL := rfl
@[simp] theorem State.emit_fast (b : Byte) : (s.emit b).fast = s.fast := rfl
@[simp] theorem State.emit_out (b : Byte) : (s.emit b).out = s.out ++ [b] := rfl
@[simp] theorem State.emit_agenda (b : Byte) : (s.emit b).agenda = s.agenda := rfl
@[simp] theorem State.emit_readData (b : Byte) : (s.emit b).readData = s.readData := rfl
@[simp] theorem State.emit_epoch (b : Byte) : (s.emit b).epoch = s.epoch := rfl
@[simp] theorem State.emit_draws (b : Byte) : (s.emit b).draws = s.draws := rfl

/-! `State.raise` -/

@[simp] theorem State.raise_width (c : Cause) : (s.raise c).width = s.width := rfl
@[simp] theorem State.raise_height (c : Cause) : (s.raise c).height = s.height := rfl
@[simp] theorem State.raise_threshold (c : Cause) : (s.raise c).threshold = s.threshold := rfl
@[simp] theorem State.raise_busy (c : Cause) : (s.raise c).busy = s.busy := rfl
@[simp] theorem State.raise_done (c : Cause) : (s.raise c).done = s.done := rfl
@[simp] theorem State.raise_err (c : Cause) : (s.raise c).err = true := rfl
@[simp] theorem State.raise_cause (c : Cause) : (s.raise c).cause = if s.cause = 0 then c.code else s.cause := rfl
@[simp] theorem State.raise_cmdLen (c : Cause) : (s.raise c).cmdLen = s.cmdLen := rfl
@[simp] theorem State.raise_cmdByte (c : Cause) : (s.raise c).cmdByte = s.cmdByte := rfl
@[simp] theorem State.raise_pix (c : Cause) : (s.raise c).pix = s.pix := rfl
@[simp] theorem State.raise_dm (c : Cause) : (s.raise c).dm = s.dm := rfl
@[simp] theorem State.raise_phase (c : Cause) : (s.raise c).phase = s.phase := rfl
@[simp] theorem State.raise_i (c : Cause) : (s.raise c).i = s.i := rfl
@[simp] theorem State.raise_acc (c : Cause) : (s.raise c).acc = s.acc := rfl
@[simp] theorem State.raise_offset (c : Cause) : (s.raise c).offset = s.offset := rfl
@[simp] theorem State.raise_x (c : Cause) : (s.raise c).x = s.x := rfl
@[simp] theorem State.raise_k (c : Cause) : (s.raise c).k = s.k := rfl
@[simp] theorem State.raise_j (c : Cause) : (s.raise c).j = s.j := rfl
@[simp] theorem State.raise_modeL (c : Cause) : (s.raise c).modeL = s.modeL := rfl
@[simp] theorem State.raise_fast (c : Cause) : (s.raise c).fast = s.fast := rfl
@[simp] theorem State.raise_out (c : Cause) : (s.raise c).out = s.out := rfl
@[simp] theorem State.raise_agenda (c : Cause) : (s.raise c).agenda = s.agenda := rfl
@[simp] theorem State.raise_readData (c : Cause) : (s.raise c).readData = s.readData := rfl
@[simp] theorem State.raise_epoch (c : Cause) : (s.raise c).epoch = s.epoch := rfl
@[simp] theorem State.raise_draws (c : Cause) : (s.raise c).draws = s.draws := rfl

/-! `State.withAgenda` -/

@[simp] theorem State.withAgenda_width (rest : List Move) : (s.withAgenda rest).width = s.width := rfl
@[simp] theorem State.withAgenda_height (rest : List Move) : (s.withAgenda rest).height = s.height := rfl
@[simp] theorem State.withAgenda_threshold (rest : List Move) : (s.withAgenda rest).threshold = s.threshold := rfl
@[simp] theorem State.withAgenda_busy (rest : List Move) : (s.withAgenda rest).busy = s.busy := rfl
@[simp] theorem State.withAgenda_done (rest : List Move) : (s.withAgenda rest).done = s.done := rfl
@[simp] theorem State.withAgenda_err (rest : List Move) : (s.withAgenda rest).err = s.err := rfl
@[simp] theorem State.withAgenda_cause (rest : List Move) : (s.withAgenda rest).cause = s.cause := rfl
@[simp] theorem State.withAgenda_cmdLen (rest : List Move) : (s.withAgenda rest).cmdLen = s.cmdLen := rfl
@[simp] theorem State.withAgenda_cmdByte (rest : List Move) : (s.withAgenda rest).cmdByte = s.cmdByte := rfl
@[simp] theorem State.withAgenda_pix (rest : List Move) : (s.withAgenda rest).pix = s.pix := rfl
@[simp] theorem State.withAgenda_dm (rest : List Move) : (s.withAgenda rest).dm = s.dm := rfl
@[simp] theorem State.withAgenda_phase (rest : List Move) : (s.withAgenda rest).phase = s.phase := rfl
@[simp] theorem State.withAgenda_i (rest : List Move) : (s.withAgenda rest).i = s.i := rfl
@[simp] theorem State.withAgenda_acc (rest : List Move) : (s.withAgenda rest).acc = s.acc := rfl
@[simp] theorem State.withAgenda_offset (rest : List Move) : (s.withAgenda rest).offset = s.offset := rfl
@[simp] theorem State.withAgenda_x (rest : List Move) : (s.withAgenda rest).x = s.x := rfl
@[simp] theorem State.withAgenda_k (rest : List Move) : (s.withAgenda rest).k = s.k := rfl
@[simp] theorem State.withAgenda_j (rest : List Move) : (s.withAgenda rest).j = s.j := rfl
@[simp] theorem State.withAgenda_modeL (rest : List Move) : (s.withAgenda rest).modeL = s.modeL := rfl
@[simp] theorem State.withAgenda_fast (rest : List Move) : (s.withAgenda rest).fast = s.fast := rfl
@[simp] theorem State.withAgenda_out (rest : List Move) : (s.withAgenda rest).out = s.out := rfl
@[simp] theorem State.withAgenda_agenda (rest : List Move) : (s.withAgenda rest).agenda = rest := rfl
@[simp] theorem State.withAgenda_readData (rest : List Move) : (s.withAgenda rest).readData = s.readData := rfl
@[simp] theorem State.withAgenda_epoch (rest : List Move) : (s.withAgenda rest).epoch = s.epoch := rfl
@[simp] theorem State.withAgenda_draws (rest : List Move) : (s.withAgenda rest).draws = s.draws := rfl

/-! `State.pushMove` -/

@[simp] theorem State.pushMove_width (m : Move) : (s.pushMove m).width = s.width := rfl
@[simp] theorem State.pushMove_height (m : Move) : (s.pushMove m).height = s.height := rfl
@[simp] theorem State.pushMove_threshold (m : Move) : (s.pushMove m).threshold = s.threshold := rfl
@[simp] theorem State.pushMove_busy (m : Move) : (s.pushMove m).busy = s.busy := rfl
@[simp] theorem State.pushMove_done (m : Move) : (s.pushMove m).done = s.done := rfl
@[simp] theorem State.pushMove_err (m : Move) : (s.pushMove m).err = s.err := rfl
@[simp] theorem State.pushMove_cause (m : Move) : (s.pushMove m).cause = s.cause := rfl
@[simp] theorem State.pushMove_cmdLen (m : Move) : (s.pushMove m).cmdLen = s.cmdLen := rfl
@[simp] theorem State.pushMove_cmdByte (m : Move) : (s.pushMove m).cmdByte = s.cmdByte := rfl
@[simp] theorem State.pushMove_pix (m : Move) : (s.pushMove m).pix = s.pix := rfl
@[simp] theorem State.pushMove_dm (m : Move) : (s.pushMove m).dm = s.dm := rfl
@[simp] theorem State.pushMove_phase (m : Move) : (s.pushMove m).phase = s.phase := rfl
@[simp] theorem State.pushMove_i (m : Move) : (s.pushMove m).i = s.i := rfl
@[simp] theorem State.pushMove_acc (m : Move) : (s.pushMove m).acc = s.acc := rfl
@[simp] theorem State.pushMove_offset (m : Move) : (s.pushMove m).offset = s.offset := rfl
@[simp] theorem State.pushMove_x (m : Move) : (s.pushMove m).x = s.x := rfl
@[simp] theorem State.pushMove_k (m : Move) : (s.pushMove m).k = s.k := rfl
@[simp] theorem State.pushMove_j (m : Move) : (s.pushMove m).j = s.j := rfl
@[simp] theorem State.pushMove_modeL (m : Move) : (s.pushMove m).modeL = s.modeL := rfl
@[simp] theorem State.pushMove_fast (m : Move) : (s.pushMove m).fast = s.fast := rfl
@[simp] theorem State.pushMove_out (m : Move) : (s.pushMove m).out = s.out := rfl
@[simp] theorem State.pushMove_agenda (m : Move) : (s.pushMove m).agenda = m :: s.agenda := rfl
@[simp] theorem State.pushMove_readData (m : Move) : (s.pushMove m).readData = s.readData := rfl
@[simp] theorem State.pushMove_epoch (m : Move) : (s.pushMove m).epoch = s.epoch := rfl
@[simp] theorem State.pushMove_draws (m : Move) : (s.pushMove m).draws = s.draws := rfl

/-! `State.finish` -/

@[simp] theorem State.finish_width : (s.finish).width = s.width := rfl
@[simp] theorem State.finish_height : (s.finish).height = s.height := rfl
@[simp] theorem State.finish_threshold : (s.finish).threshold = s.threshold := rfl
@[simp] theorem State.finish_busy : (s.finish).busy = false := rfl
@[simp] theorem State.finish_done : (s.finish).done = true := rfl
@[simp] theorem State.finish_err : (s.finish).err = s.err := rfl
@[simp] theorem State.finish_cause : (s.finish).cause = s.cause := rfl
@[simp] theorem State.finish_cmdLen : (s.finish).cmdLen = s.cmdLen := rfl
@[simp] theorem State.finish_cmdByte : (s.finish).cmdByte = s.cmdByte := rfl
@[simp] theorem State.finish_pix : (s.finish).pix = s.pix := rfl
@[simp] theorem State.finish_dm : (s.finish).dm = s.dm := rfl
@[simp] theorem State.finish_phase : (s.finish).phase = .idle := rfl
@[simp] theorem State.finish_i : (s.finish).i = s.i := rfl
@[simp] theorem State.finish_acc : (s.finish).acc = s.acc := rfl
@[simp] theorem State.finish_offset : (s.finish).offset = s.offset := rfl
@[simp] theorem State.finish_x : (s.finish).x = s.x := rfl
@[simp] theorem State.finish_k : (s.finish).k = s.k := rfl
@[simp] theorem State.finish_j : (s.finish).j = s.j := rfl
@[simp] theorem State.finish_modeL : (s.finish).modeL = s.modeL := rfl
@[simp] theorem State.finish_fast : (s.finish).fast = s.fast := rfl
@[simp] theorem State.finish_out : (s.finish).out = s.out := rfl
@[simp] theorem State.finish_agenda : (s.finish).agenda = s.agenda := rfl
@[simp] theorem State.finish_readData : (s.finish).readData = s.readData := rfl
@[simp] theorem State.finish_epoch : (s.finish).epoch = s.epoch := rfl
@[simp] theorem State.finish_draws : (s.finish).draws = s.draws := rfl

/-! `State.finishAtOnce` -/

@[simp] theorem State.finishAtOnce_width : (s.finishAtOnce).width = s.width := rfl
@[simp] theorem State.finishAtOnce_height : (s.finishAtOnce).height = s.height := rfl
@[simp] theorem State.finishAtOnce_threshold : (s.finishAtOnce).threshold = s.threshold := rfl
@[simp] theorem State.finishAtOnce_busy : (s.finishAtOnce).busy = s.busy := rfl
@[simp] theorem State.finishAtOnce_done : (s.finishAtOnce).done = true := rfl
@[simp] theorem State.finishAtOnce_err : (s.finishAtOnce).err = s.err := rfl
@[simp] theorem State.finishAtOnce_cause : (s.finishAtOnce).cause = s.cause := rfl
@[simp] theorem State.finishAtOnce_cmdLen : (s.finishAtOnce).cmdLen = s.cmdLen := rfl
@[simp] theorem State.finishAtOnce_cmdByte : (s.finishAtOnce).cmdByte = s.cmdByte := rfl
@[simp] theorem State.finishAtOnce_pix : (s.finishAtOnce).pix = s.pix := rfl
@[simp] theorem State.finishAtOnce_dm : (s.finishAtOnce).dm = s.dm := rfl
@[simp] theorem State.finishAtOnce_phase : (s.finishAtOnce).phase = s.phase := rfl
@[simp] theorem State.finishAtOnce_i : (s.finishAtOnce).i = s.i := rfl
@[simp] theorem State.finishAtOnce_acc : (s.finishAtOnce).acc = s.acc := rfl
@[simp] theorem State.finishAtOnce_offset : (s.finishAtOnce).offset = s.offset := rfl
@[simp] theorem State.finishAtOnce_x : (s.finishAtOnce).x = s.x := rfl
@[simp] theorem State.finishAtOnce_k : (s.finishAtOnce).k = s.k := rfl
@[simp] theorem State.finishAtOnce_j : (s.finishAtOnce).j = s.j := rfl
@[simp] theorem State.finishAtOnce_modeL : (s.finishAtOnce).modeL = s.modeL := rfl
@[simp] theorem State.finishAtOnce_fast : (s.finishAtOnce).fast = s.fast := rfl
@[simp] theorem State.finishAtOnce_out : (s.finishAtOnce).out = s.out := rfl
@[simp] theorem State.finishAtOnce_agenda : (s.finishAtOnce).agenda = s.agenda := rfl
@[simp] theorem State.finishAtOnce_readData : (s.finishAtOnce).readData = s.readData := rfl
@[simp] theorem State.finishAtOnce_epoch : (s.finishAtOnce).epoch = s.epoch := rfl
@[simp] theorem State.finishAtOnce_draws : (s.finishAtOnce).draws = s.draws := rfl

/-! `State.begin` -/

@[simp] theorem State.begin_width (p : Phase) : (s.begin p).width = s.width := rfl
@[simp] theorem State.begin_height (p : Phase) : (s.begin p).height = s.height := rfl
@[simp] theorem State.begin_threshold (p : Phase) : (s.begin p).threshold = s.threshold := rfl
@[simp] theorem State.begin_busy (p : Phase) : (s.begin p).busy = true := rfl
@[simp] theorem State.begin_done (p : Phase) : (s.begin p).done = s.done := rfl
@[simp] theorem State.begin_err (p : Phase) : (s.begin p).err = s.err := rfl
@[simp] theorem State.begin_cause (p : Phase) : (s.begin p).cause = s.cause := rfl
@[simp] theorem State.begin_cmdLen (p : Phase) : (s.begin p).cmdLen = s.cmdLen := rfl
@[simp] theorem State.begin_cmdByte (p : Phase) : (s.begin p).cmdByte = s.cmdByte := rfl
@[simp] theorem State.begin_pix (p : Phase) : (s.begin p).pix = s.pix := rfl
@[simp] theorem State.begin_dm (p : Phase) : (s.begin p).dm = s.dm := rfl
@[simp] theorem State.begin_phase (p : Phase) : (s.begin p).phase = p := rfl
@[simp] theorem State.begin_i (p : Phase) : (s.begin p).i = s.i := rfl
@[simp] theorem State.begin_acc (p : Phase) : (s.begin p).acc = s.acc := rfl
@[simp] theorem State.begin_offset (p : Phase) : (s.begin p).offset = s.offset := rfl
@[simp] theorem State.begin_x (p : Phase) : (s.begin p).x = s.x := rfl
@[simp] theorem State.begin_k (p : Phase) : (s.begin p).k = s.k := rfl
@[simp] theorem State.begin_j (p : Phase) : (s.begin p).j = s.j := rfl
@[simp] theorem State.begin_modeL (p : Phase) : (s.begin p).modeL = s.modeL := rfl
@[simp] theorem State.begin_fast (p : Phase) : (s.begin p).fast = s.fast := rfl
@[simp] theorem State.begin_out (p : Phase) : (s.begin p).out = s.out := rfl
@[simp] theorem State.begin_agenda (p : Phase) : (s.begin p).agenda = s.agenda := rfl
@[simp] theorem State.begin_readData (p : Phase) : (s.begin p).readData = s.readData := rfl
@[simp] theorem State.begin_epoch (p : Phase) : (s.begin p).epoch = s.epoch := rfl
@[simp] theorem State.begin_draws (p : Phase) : (s.begin p).draws = s.draws := rfl

/-! `State.busyRead` -/

@[simp] theorem State.busyRead_width : (s.busyRead).width = s.width := rfl
@[simp] theorem State.busyRead_height : (s.busyRead).height = s.height := rfl
@[simp] theorem State.busyRead_threshold : (s.busyRead).threshold = s.threshold := rfl
@[simp] theorem State.busyRead_busy : (s.busyRead).busy = s.busy := rfl
@[simp] theorem State.busyRead_done : (s.busyRead).done = s.done := rfl
@[simp] theorem State.busyRead_err : (s.busyRead).err = s.err := rfl
@[simp] theorem State.busyRead_cause : (s.busyRead).cause = s.cause := rfl
@[simp] theorem State.busyRead_cmdLen : (s.busyRead).cmdLen = s.cmdLen := rfl
@[simp] theorem State.busyRead_cmdByte : (s.busyRead).cmdByte = s.cmdByte := rfl
@[simp] theorem State.busyRead_pix : (s.busyRead).pix = s.pix := rfl
@[simp] theorem State.busyRead_dm : (s.busyRead).dm = s.dm := rfl
@[simp] theorem State.busyRead_phase : (s.busyRead).phase = s.phase := rfl
@[simp] theorem State.busyRead_i : (s.busyRead).i = s.i := rfl
@[simp] theorem State.busyRead_acc : (s.busyRead).acc = s.acc := rfl
@[simp] theorem State.busyRead_offset : (s.busyRead).offset = s.offset := rfl
@[simp] theorem State.busyRead_x : (s.busyRead).x = s.x := rfl
@[simp] theorem State.busyRead_k : (s.busyRead).k = s.k := rfl
@[simp] theorem State.busyRead_j : (s.busyRead).j = s.j := rfl
@[simp] theorem State.busyRead_modeL : (s.busyRead).modeL = s.modeL := rfl
@[simp] theorem State.busyRead_fast : (s.busyRead).fast = s.fast := rfl
@[simp] theorem State.busyRead_out : (s.busyRead).out = s.out := rfl
@[simp] theorem State.busyRead_agenda : (s.busyRead).agenda = s.agenda := rfl
@[simp] theorem State.busyRead_readData : (s.busyRead).readData = some (Config.busyReadValue s.draws) := rfl
@[simp] theorem State.busyRead_epoch : (s.busyRead).epoch = s.epoch := rfl
@[simp] theorem State.busyRead_draws : (s.busyRead).draws = s.draws + 1 := rfl

end Sys2Proof.Machine
end

