-- ==== Sys2Proof/Laws/Memory.lean ====
section
/-! SUPPORT. The laws of a word memory: read after write, and the canonical form kept by a write. -/

namespace Sys2Proof.Machine

@[simp] theorem Memory.read_nil (i : Nat) : Memory.read [] i = none := rfl

theorem Memory.read_cons (a : Nat) (v : Word) (m : Memory) (i : Nat) :
    Memory.read ((a, v) :: m) i = if a = i then some v else Memory.read m i := rfl

/-- A read after a write gives the value written at that index, and what was there before at every other index. -/
theorem Memory.read_write (m : Memory) (i : Nat) (v : Word) (n : Nat) :
    Memory.read (Memory.write m i v) n = if n = i then some v else Memory.read m n := by
  induction m with
  | nil => simp [Memory.write, Memory.read, eq_comm]
  | cons c rest ih =>
    obtain ⟨a, w⟩ := c
    simp only [Memory.write]
    split
    · simp only [Memory.read_cons]; grind
    · split
      · simp only [Memory.read_cons]; grind
      · simp only [Memory.read_cons, ih]; grind

theorem Memory.risingFrom_mono {lo lo' : Nat} (m : Memory) (h : Memory.risingFrom lo m = true) (hl : lo' ≤ lo) :
    Memory.risingFrom lo' m = true := by
  cases m with
  | nil => rfl
  | cons c rest =>
    simp only [Memory.risingFrom, Bool.and_eq_true, decide_eq_true_eq] at h ⊢
    exact ⟨hl.trans h.1, h.2⟩

theorem Memory.risingFrom_write (lo : Nat) (m : Memory) (i : Nat) (v : Word) (h : Memory.risingFrom lo m = true)
    (hi : lo ≤ i) : Memory.risingFrom lo (Memory.write m i v) = true := by
  induction m generalizing lo with
  | nil => simp [Memory.write, Memory.risingFrom, hi]
  | cons c rest ih =>
    obtain ⟨a, w⟩ := c
    simp only [Memory.risingFrom, Bool.and_eq_true, decide_eq_true_eq] at h
    simp only [Memory.write]
    split
    · simp only [Memory.risingFrom, Bool.and_eq_true, decide_eq_true_eq]
      exact ⟨hi, by omega, h.2⟩
    · split
      · subst_vars
        simp only [Memory.risingFrom, Bool.and_eq_true, decide_eq_true_eq]
        exact ⟨h.1, h.2⟩
      · simp only [Memory.risingFrom, Bool.and_eq_true, decide_eq_true_eq]
        exact ⟨h.1, ih (a + 1) h.2 (by omega)⟩

/-- A write keeps the canonical form. -/
theorem Memory.wf_write (m : Memory) (i : Nat) (v : Word) (h : m.wf = true) : (Memory.write m i v).wf = true :=
  Memory.risingFrom_write 0 m i v h (Nat.zero_le i)

/-- A write at an index that exists keeps every listed index one that exists. -/
theorem Memory.below_write (n : Nat) (m : Memory) (i : Nat) (v : Word) (h : m.below n = true) (hi : i < n) :
    (Memory.write m i v).below n = true := by
  induction m with
  | nil => simp [Memory.write, Memory.below, hi]
  | cons c rest ih =>
    obtain ⟨a, w⟩ := c
    simp only [Memory.below, List.all_cons, Bool.and_eq_true, decide_eq_true_eq] at h ih ⊢
    simp only [Memory.write]
    split
    · simp [hi, h]
    · split
      · simpa [hi] using h.2
      · simp only [List.all_cons, Bool.and_eq_true, decide_eq_true_eq]
        exact ⟨h.1, ih h.2⟩

/-- Reading PIX after writing it. -/
theorem State.readPix_writePix (s : State) (i : Nat) (v : Word) (n : Nat) :
    (s.writePix i v).readPix n = if n = i then v else s.readPix n := by
  simp only [State.readPix, State.writePix_pix, State.writePix_epoch, Memory.read_write]
  split <;> rfl

/-- Reading DM after writing it. -/
theorem State.readDm_writeDm (s : State) (a : Nat) (v : Word) (n : Nat) :
    (s.writeDm a v).readDm n = if n = a then v else s.readDm n := by
  simp only [State.readDm, State.writeDm_dm, State.writeDm_epoch, Memory.read_write]
  split <;> rfl

/-- The memories of the machine right after reset are in canonical form. -/
theorem reset_memories_wf : State.reset.pix.wf = true ∧ State.reset.dm.wf = true := ⟨rfl, rfl⟩

/-- CMD_LEN read after a write of one entry. -/
theorem State.lenOf_setLen (s : State) (n m : Fin 8) (v : BitVec 4) :
    (s.setLen n v).lenOf m = if m = n then v else s.lenOf m := by
  simp only [State.lenOf, State.setLen_cmdLen, Vector.get_eq_getElem, Vector.getElem_set]
  split <;> split <;> simp_all [Fin.ext_iff, eq_comm]

/-- CMD_BYTE read after a write of one byte. -/
theorem State.byteOf_setByte (s : State) (n m : Fin 8) (j l : Fin 16) (v : Byte) :
    (s.setByte n j v).byteOf m l = if m = n ∧ l = j then v else s.byteOf m l := by
  simp only [State.byteOf, State.setByte_cmdByte, Vector.get_eq_getElem, Vector.getElem_set]
  by_cases hm : m = n
  · subst hm
    by_cases hl : l = j
    · subst hl; simp
    · have : ¬ (j.val = l.val) := fun h => hl (Fin.ext h.symm)
      simp [hl, this]
  · have : ¬ (n.val = m.val) := fun h => hm (Fin.ext h.symm)
    simp [hm, this]

end Sys2Proof.Machine
end

