-- ==== Sys2Proof/Laws/Operations.lean ====
section
/-! SUPPORT. For each shared operation, once, everything it can do; later proofs cite these and do not unfold the operation. -/

namespace Sys2Proof.Machine

/-- A code of R165 is never 0. -/
theorem Cause.code_ne_zero (c : Cause) : c.code ≠ 0 := by cases c <;> decide

/-- A code of R165 is at most 4. -/
theorem Cause.code_le (c : Cause) : c.code.toNat ≤ 4 := by cases c <;> decide

/-- After `raise` CAUSE is never 0. -/
theorem State.raise_cause_ne_zero (s : State) (c : Cause) : (s.raise c).cause ≠ 0 := by
  simp only [State.raise_cause]
  split
  · exact c.code_ne_zero
  · assumption

/-- N never exceeds the default capacity (40_quantize.md R90): CAPACITY_ERROR cannot arise. -/
theorem State.pixels_le_default (s : State) : s.pixels ≤ Config.btq.maxPixels := by
  have hw := s.width.isLt
  have hh := s.height.isLt
  have : s.width.toNat * s.height.toNat ≤ 65535 * 65535 := Nat.mul_le_mul (by omega) (by omega)
  simpa [State.pixels, Config.btq] using this

/-- N = 0 exactly for a degenerate matrix. -/
theorem State.pixels_eq_zero (s : State) : s.pixels = 0 ↔ s.degenerate = true := by
  simp [State.pixels, State.degenerate, BitVec.toNat_eq]

/-- The command gate (43_host_access.md R154, steps 1 and 2): busy, faulted, or open. -/
theorem commandGate_cases (go : State → State) (s : State) :
    (s.busy = true ∧ commandGate go s = s.raise .busyAccess)
      ∨ (s.busy = false ∧ s.err = true ∧ commandGate go s = s)
      ∨ (s.busy = false ∧ s.err = false ∧ commandGate go s = go s) := by
  unfold commandGate
  cases s.busy <;> cases s.err <;> simp

/-- Steps 4 to 6 of R154: a missing entry, a matrix too large, or the start of the operation. -/
theorem acceptChecks_cases (cfg : Config) (needsConfig : Bool) (start : State → State) (s : State) :
    (needsConfig = true ∧ s.allPresent cfg = false ∧ acceptChecks cfg needsConfig start s = s.raise .configError)
      ∨ ((needsConfig = true → s.allPresent cfg = true) ∧ cfg.maxPixels < s.pixels
          ∧ acceptChecks cfg needsConfig start s = s.raise .capacityError)
      ∨ ((needsConfig = true → s.allPresent cfg = true) ∧ s.pixels ≤ cfg.maxPixels
          ∧ acceptChecks cfg needsConfig start s = start s) := by
  unfold acceptChecks
  by_cases h : s.pixels ≤ cfg.maxPixels
  · have : ¬ cfg.maxPixels < s.pixels := by omega
    cases needsConfig <;> cases s.allPresent cfg <;> simp [this, h]
  · have : cfg.maxPixels < s.pixels := by omega
    cases needsConfig <;> cases s.allPresent cfg <;> simp [this]

/-- A guarded write (R157): dropped with BUSY_ACCESS, or made. -/
theorem guardedWrite_cases (store : State → State) (s : State) :
    (s.busy = true ∧ guardedWrite store s = s.raise .busyAccess)
      ∨ (s.busy = false ∧ guardedWrite store s = store s) := by
  unfold guardedWrite
  cases s.busy <;> simp

/-- All eight entries are present, entry by entry. -/
theorem State.allPresent_iff (cfg : Config) (s : State) :
    s.allPresent cfg = true ↔ ∀ n, 1 ≤ (s.lenOf n).toNat ∧ (s.lenOf n).toNat ≤ cfg.cmdMaxlen := by
  simp [State.allPresent, State.present]

/-- SINK.ACCEPT answers next exactly when a byte is offered (R155). -/
theorem sinkAcceptIn_next {cfg : Config} {s t : State} (h : sinkAcceptIn cfg s = .next t) :
    ∃ b, offered cfg s = .next b ∧ t = (advance s).emit b := by
  unfold sinkAcceptIn at h
  split at h <;> simp_all

/-- QSTEP answers next only while PHASE = Q_RUN, and then with R102's micro-step (R160). -/
theorem qstepIn_next {cfg : Config} {s t : State} (h : qstepIn cfg s = .next t) :
    s.phase = .qRun ∧ s.i.toNat < cfg.maxPixels ∧ t = quantizeStep cfg s := by
  unfold qstepIn at h
  split at h
  · cases h
  · split at h
    · cases h
    · simp_all

/-- WR answers next on a mapped register only, and then runs a command or a guarded write (R148). -/
theorem wrIn_next {cfg : Config} {r : BitVec 8} {v : Word} {s t : State} (h : wrIn cfg r v s = .next t) :
    (decodeReg cfg r = some .ctrl ∧ commandIn cfg (v.setWidth 8) s = .next t)
      ∨ ∃ reg, decodeReg cfg r = some reg ∧ reg ≠ .ctrl ∧ t = guardedWrite (fun u => u.writeReg v reg) s := by
  unfold wrIn at h
  split at h
  · cases h
  · exact .inl ⟨by assumption, h⟩
  · exact .inr ⟨_, by assumption, by assumption, by simpa using h.symm⟩

/-- RD answers next on a mapped register only, and changes nothing but what the host has read (R149). -/
theorem rdIn_next {cfg : Config} {r : BitVec 8} {s t : State} (h : rdIn cfg r s = .next t) :
    ∃ reg, decodeReg cfg r = some reg ∧ t = s.returns (s.readReg reg) := by
  unfold rdIn at h
  split at h
  · cases h
  · exact ⟨_, by assumption, by simpa using h.symm⟩

/-- PIXW answers next on an index that exists only (R150). -/
theorem pixwIn_next {cfg : Config} {i : BitVec 32} {v : Word} {s t : State} (h : pixwIn cfg i v s = .next t) :
    i.toNat < cfg.maxPixels ∧ t = guardedWrite (fun u => u.writePix i.toNat v) s := by
  unfold pixwIn at h
  split at h <;> simp_all

/-- DMW answers next on an index that exists only (R152). -/
theorem dmwIn_next {cfg : Config} {a : BitVec 27} {v : Word} {s t : State} (h : dmwIn cfg a v s = .next t) :
    a.toNat < cfg.dmWords ∧ t = guardedWrite (fun u => u.writeDm a.toNat v) s := by
  unfold dmwIn at h
  split at h <;> simp_all

/-- PIXR answers next on an index that exists only; busy, it returns a fresh unspecified value (R151). -/
theorem pixrIn_next {cfg : Config} {i : BitVec 32} {s t : State} (h : pixrIn cfg i s = .next t) :
    i.toNat < cfg.maxPixels
      ∧ ((s.busy = true ∧ t = s.busyRead) ∨ (s.busy = false ∧ t = s.returns (s.readPix i.toNat))) := by
  unfold pixrIn at h
  split at h
  · cases h
  · split at h <;> simp_all

/-- DMR likewise (R153). -/
theorem dmrIn_next {cfg : Config} {a : BitVec 27} {s t : State} (h : dmrIn cfg a s = .next t) :
    a.toNat < cfg.dmWords
      ∧ ((s.busy = true ∧ t = s.busyRead) ∨ (s.busy = false ∧ t = s.returns (s.readDm a.toNat))) := by
  unfold dmrIn at h
  split at h
  · cases h
  · split at h <;> simp_all

/-- A step with no move on the agenda. -/
theorem step_alone (s : State) (h : s.agenda = []) : step s = stepAlone s := by
  simp [step, stepAgenda, h]

/-- A step with a move on the agenda. -/
theorem step_move (s : State) (m : Move) (rest : List Move) (h : s.agenda = m :: rest) :
    step s = performMove m (s.withAgenda rest) := by
  simp [step, stepAgenda, h]

/-- Whatever a step does that goes on, it waits, or it is one instruction's effect on the state less the move made. -/
theorem step_next {s t : State} (h : step s = .next t) :
    (s.agenda = [] ∧ t = s) ∨ (∃ i rest, exec i (s.withAgenda rest) = .next t) := by
  unfold step stepAgenda at h
  split at h
  · rename_i hnil
    unfold stepAlone at h
    split at h
    · refine .inr ⟨.qstep, [], ?_⟩
      have : s.withAgenda [] = s := by rw [State.withAgenda, ← hnil]
      rw [this]; exact h
    · exact .inl ⟨hnil, by simpa using h.symm⟩
  · unfold performMove at h
    split at h
    · exact .inr ⟨_, _, h⟩
    · exact .inr ⟨_, _, h⟩
    · cases h

/-- `exec` is the parametric machine at the parameters this hardware has. -/
theorem exec_eq_execIn (i : Instr) (s : State) : exec i s = execIn Config.btq i s := by cases i <;> rfl

/-- RESET leaves the moves still to come, and what the host has read, alone. -/
theorem State.afterReset_agenda (cfg : Config) (s : State) :
    (s.afterReset cfg).agenda = s.agenda ∧ (s.afterReset cfg).readData = s.readData := ⟨rfl, rfl⟩

end Sys2Proof.Machine
end

