-- ==== Sys2Proof/Laws/PerInstr.lean ====
section
/-! SUPPORT. Statements made for each instruction, one lemma per constructor. -/

namespace Sys2Proof.Laws

/-- `match` and `mask` of an instruction's row in spec/opcode_table.json, over the 8-bit command word. -/
def tableRow : Instr → BitVec 32 × BitVec 32
  | .quantize => (0x10, 0xFF)
  | .encodeN => (0x20, 0xFF)
  | .encode2W => (0x21, 0xFF)
  | .encode2H => (0x22, 0xFF)
  | .encodeQ => (0x23, 0xFF)
  | .encodeUnknown4to7 _ => (0x24, 0xFC)
  | .encodeUnknown8to15 _ => (0x28, 0xF8)
  | .wr _ _ => (0, 0)
  | .rd _ => (0, 0)
  | .pixw _ _ => (0, 0)
  | .pixr _ => (0, 0)
  | .dmw _ _ => (0, 0)
  | .dmr _ => (0, 0)
  | .cmd _ => (0, 0)
  | .sinkAccept => (0, 0)
  | .reset => (0, 0)
  | .qstep => (0, 0)

/-- What an instruction is carried as agrees with its row of the opcode table: its word has the row's fixed bits. -/
def TableRow.Statement (i : Instr) : Prop := (encode i).value &&& (tableRow i).2 = (tableRow i).1

theorem TableRow.quantize : TableRow.Statement .quantize := by unfold TableRow.Statement; decide
theorem TableRow.encodeN : TableRow.Statement .encodeN := by unfold TableRow.Statement; decide
theorem TableRow.encode2W : TableRow.Statement .encode2W := by unfold TableRow.Statement; decide
theorem TableRow.encode2H : TableRow.Statement .encode2H := by unfold TableRow.Statement; decide
theorem TableRow.encodeQ : TableRow.Statement .encodeQ := by unfold TableRow.Statement; decide
theorem TableRow.encodeUnknown4to7 : ∀ low, TableRow.Statement (.encodeUnknown4to7 low) := by
  unfold TableRow.Statement; decide
theorem TableRow.encodeUnknown8to15 : ∀ low, TableRow.Statement (.encodeUnknown8to15 low) := by
  unfold TableRow.Statement; decide
theorem TableRow.wr (r : BitVec 8) (v : Word) : TableRow.Statement (.wr r v) := by simp [TableRow.Statement, tableRow]
theorem TableRow.rd (r : BitVec 8) : TableRow.Statement (.rd r) := by simp [TableRow.Statement, tableRow]
theorem TableRow.pixw (i : BitVec 32) (v : Word) : TableRow.Statement (.pixw i v) := by
  simp [TableRow.Statement, tableRow]
theorem TableRow.pixr (i : BitVec 32) : TableRow.Statement (.pixr i) := by simp [TableRow.Statement, tableRow]
theorem TableRow.dmw (a : BitVec 27) (v : Word) : TableRow.Statement (.dmw a v) := by
  simp [TableRow.Statement, tableRow]
theorem TableRow.dmr (a : BitVec 27) : TableRow.Statement (.dmr a) := by simp [TableRow.Statement, tableRow]
theorem TableRow.cmd (c : Byte) : TableRow.Statement (.cmd c) := by simp [TableRow.Statement, tableRow]
theorem TableRow.sinkAccept : TableRow.Statement .sinkAccept := by simp [TableRow.Statement, tableRow]
theorem TableRow.reset : TableRow.Statement .reset := by simp [TableRow.Statement, tableRow]
theorem TableRow.qstep : TableRow.Statement .qstep := by simp [TableRow.Statement, tableRow]

end Sys2Proof.Laws
end

