-- ==== Sys2Proof/Laws/Registers.lean ====
section
/-! SUPPORT. The register decoder agrees with the list of mapped numbers (10_state.md R24, R25). -/

namespace Sys2Proof

/-- Under the parameters of this hardware the decoder finds a register exactly at the mapped numbers. -/
theorem decodeReg_isSome_iff_mapped : ∀ r : BitVec 8, (decodeReg Config.btq r).isSome = registerMapped Config.btq r := by
  decide

end Sys2Proof
end

