-- ==== Sys2Proof/Tests/Slice0.lean ====
section
/-! SUPPORT. The model's own tests: a smoke test of WellFormed, a written-out word for each constructor, single steps whose
expected results are the vectors of 95_test_vectors.md, and a state that meets the hypotheses of each statement. -/

namespace Sys2Proof.Tests

open Sys2Proof.Machine

/-! ### WellFormed refuses what is no move (R158, V-X26) -/

theorem test_wf_refuses_unmapped_low : (Instr.wr 0x06 0).wf = false := by decide
theorem test_wf_refuses_unmapped_gap : (Instr.rd 0x7F).wf = false := by decide
theorem test_wf_refuses_byte_beyond_maxlen : (Instr.wr 0x88 0).wf = false := by decide
theorem test_wf_refuses_pixw_out_of_range : (Instr.pixw 4294836225 0).wf = false := by decide
theorem test_wf_refuses_pixr_out_of_range : (Instr.pixr 4294836225).wf = false := by decide
theorem test_wf_refuses_dmw_out_of_range : (Instr.dmw 134213633 0).wf = false := by decide
theorem test_wf_refuses_dmr_out_of_range : (Instr.dmr 134213633).wf = false := by decide
theorem test_wf_accepts_boundaries :
    (Instr.wr 0x05 0).wf && (Instr.rd 0x10).wf && (Instr.rd 0x17).wf && (Instr.wr 0xF7 0).wf
      && (Instr.pixw 4294836224 0).wf && (Instr.dmr 134213632).wf = true := by decide

/-! ### Every constructor's decoding, from a word written out by R66 to R72 -/

theorem test_decode_quantize : decodeTableWord 8 0b00010000 = some .quantize := by decide
theorem test_decode_encodeN : decodeTableWord 8 0b00100000 = some .encodeN := by decide
theorem test_decode_encode2W : decodeTableWord 8 0b00100001 = some .encode2W := by decide
theorem test_decode_encode2H : decodeTableWord 8 0b00100010 = some .encode2H := by decide
theorem test_decode_encodeQ : decodeTableWord 8 0b00100011 = some .encodeQ := by decide
theorem test_decode_unknown_5 : decodeTableWord 8 0b00100101 = some (.encodeUnknown4to7 0b01) := by decide
theorem test_decode_unknown_14 : decodeTableWord 8 0b00101110 = some (.encodeUnknown8to15 0b110) := by decide
theorem test_decode_illegal_words :
    [0x00, 0x0F, 0x11, 0x1F, 0x30, 0xFF].map (decodeTableWord 8) = [none, none, none, none, none, none] := by decide
theorem test_decode_wr : decode ⟨.wr, 0x05, 0x1C8⟩ = .ok (.wr 0x05 0x1C8) := by decide
theorem test_decode_rd : decode ⟨.rd, 0x17, 0⟩ = .ok (.rd 0x17) := by decide
theorem test_decode_pixw : decode ⟨.pixw, 0x80000001, 0x00C8C8C8⟩ = .ok (.pixw 0x80000001 0x00C8C8C8) := by decide
theorem test_decode_pixr : decode ⟨.pixr, 3, 0⟩ = .ok (.pixr 3) := by decide
theorem test_decode_dmw : decode ⟨.dmw, 0x07FFFFFF, 1⟩ = .ok (.dmw 0x7FFFFFF 1) := by decide
theorem test_decode_dmr : decode ⟨.dmr, 2, 0⟩ = .ok (.dmr 2) := by decide
theorem test_decode_cmd : decode ⟨.cmd, 0, 0x2F⟩ = .ok (.cmd 0x2F) := by decide
theorem test_decode_sinkAccept : decode ⟨.sinkAccept, 0, 0⟩ = .ok .sinkAccept := by decide
theorem test_decode_reset : decode ⟨.reset, 0, 0⟩ = .ok .reset := by decide
theorem test_decode_qstep : decode ⟨.qstep, 0, 0⟩ = .ok .qstep := by decide
theorem test_decode_rejects_by_name :
    decode ⟨.word, 0, 0x30⟩ = .error (.illegalCommandWord 0x30) ∧ decode ⟨.wr, 0x103, 0⟩ = .error .operandTooWide
      ∧ decode ⟨.dmr, 0x08000000, 0⟩ = .error .operandTooWide ∧ decode ⟨.reset, 0, 1⟩ = .error .strayOperand := by
  decide

/-! ### The states of the vectors -/

/-- The register bytes of an entry: the given ones, then zeros. -/
def entryBytes (l : List Nat) : Vector Byte 16 := Vector.ofFn fun j => BitVec.ofNat 8 (l.getD j.val 0)

/-- Reset, then TESTCFG loaded (95_test_vectors.md section 1). -/
def testcfg : State := { State.reset with
  cmdLen := #v[2, 1, 2, 3, 4, 3, 2, 1]
  cmdByte := #v[entryBytes [0xA0, 0xA1], entryBytes [0xB0], entryBytes [0xB1, 0xB1], entryBytes [0xB2, 0xB2, 0xB2],
    entryBytes [0xB3, 0xB3, 0xB3, 0xB3], entryBytes [0xC1, 0xC2, 0xC3], entryBytes [0xD1, 0xD2], entryBytes [0xEE]] }

/-- TESTCFG, WIDTH = HEIGHT = 1, DM[0] = 1, PIX[0] = grey(200): the start of section 7 and of program P1. -/
def oneDot : State := { testcfg with width := 1, height := 1, dm := [(0, 1)], pix := [(0, 0xFFC8C8C8)] }

/-- Just after an ENCODE.N of `oneDot` was accepted (section 8). -/
def encoding : State := { oneDot with busy := true, phase := .eLs, fast := true }

/-- Just after a QUANTIZE of `oneDot` was accepted. -/
def quantizing : State := { oneDot with busy := true, phase := .qRun }

/-- `oneDot` with entry 7 missing (V-X7). -/
def noLf : State := { oneDot with cmdLen := #v[2, 1, 2, 3, 4, 3, 2, 0] }

/-- `noLf` after CONFIG_ERROR (program P3). -/
def faulted : State := { noLf with err := true, cause := 1 }

/-- The matrix of V-F6 in its last band, all columns sent. -/
def lastBand : State := { testcfg with
  width := 3, height := 30, busy := true, phase := .eLf, offset := 24, x := 2, dm := [(0, 0x0A8542A1), (1, 0xA8542A15), (2, 0x0142A150)] }

/-- A property of the next state; false where there is none. -/
def nextSat (r : Result) (p : State → Bool) : Bool :=
  match r with
  | .next t => p t
  | .fault _ => false
  | .refused _ => false

/-- The result is the refusal `why`. -/
def refusedWith (r : Result) (why : Refusal) : Bool :=
  match r with
  | .next _ => false
  | .fault _ => false
  | .refused w => decide (w = why)

/-- The result is the fault `f`. -/
def faultsWith (r : Result) (f : Fault) : Bool :=
  match r with
  | .next _ => false
  | .fault g => decide (g = f)
  | .refused _ => false

/-! ### Single steps -/

/-- Program P1: CMD QUANTIZE gives STATUS = 1, PHASE = Q_RUN. -/
theorem test_quantize_starts : nextSat (exec .quantize oneDot) (fun t => t.status = 1 && t.phase = .qRun) = true := by decide

/-- V-Q11: with N = 0 DONE at acceptance, BUSY never 1. -/
theorem test_quantize_empty : nextSat (exec .quantize testcfg) (fun t => t.status = 2 && t.phase = .idle) = true := by decide

/-- V-Q1: grey(200) over 127 sets the dot, and the last pixel completes. -/
theorem test_qstep_sets_dot :
    nextSat (exec .qstep { quantizing with dm := [] }) (fun t => t.status = 2 && t.dm = [(0, 1)]) = true := by decide

/-- V-Q3: pixel 31 fills word 0, whose earlier content has no influence; pixel 32 is not yet thresholded. -/
theorem test_qstep_writes_full_word :
    nextSat (exec .qstep { quantizing with width := 33, i := 31, acc := 0x7FFFFFFF, pix := [(31, 0xFFFFFFFF)], dm := [(0, 5)] })
      (fun t => t.dm = [(0, 0xFFFFFFFF)] && t.i = 32 && t.acc = 0 && t.busy) = true := by decide

/-- Section 6, V-F1: ENCODE.N enters E_LS with FAST = 1. -/
theorem test_encodeN_starts :
    nextSat (exec .encodeN oneDot) (fun t => t.status = 1 && t.phase = .eLs && t.modeL = 0 && t.fast) = true := by decide

/-- V-X7: CTL_LF is required even on the fast path. -/
theorem test_encodeN_config_error : nextSat (exec .encodeN noLf) (fun t => t.status = 4 && t.cause = 1 && t.out = []) = true := by
  decide

theorem test_encode2W_mode : nextSat (exec .encode2W oneDot) (fun t => t.phase = .eLs && t.modeL = 1) = true := by decide
theorem test_encode2H_mode : nextSat (exec .encode2H oneDot) (fun t => t.phase = .eLs && t.modeL = 2) = true := by decide
theorem test_encodeQ_mode : nextSat (exec .encodeQ oneDot) (fun t => t.phase = .eLs && t.modeL = 3) = true := by decide

/-- V-F19: an unknown mode latches NORMAL. -/
theorem test_unknown_mode_5 :
    nextSat (exec (.encodeUnknown4to7 1) oneDot) (fun t => t.phase = .eLs && t.modeL = 0) = true := by decide
theorem test_unknown_mode_15 :
    nextSat (exec (.encodeUnknown8to15 7) oneDot) (fun t => t.phase = .eLs && t.modeL = 0) = true := by decide

/-- V-X16: truncation to 16 bits. -/
theorem test_wr_truncates : nextSat (exec (.wr 0x03 0x10005) oneDot) (fun t => t.width = 5 && t.status = 0) = true := by decide

/-- V-X22: BUSY_ACCESS, THRESHOLD still 127. -/
theorem test_wr_busy :
    nextSat (exec (.wr 0x05 0) encoding) (fun t => t.status = 5 && t.cause = 3 && t.threshold = 127) = true := by decide

/-- V-X21: RD 0x05 after reset returns 127. -/
theorem test_rd_threshold : nextSat (exec (.rd 0x05) State.reset) (fun t => t.readData = some 127) = true := by decide

/-- V-X25: a read while busy returns STATUS and raises nothing. -/
theorem test_rd_status_busy : nextSat (exec (.rd 0x01) encoding) (fun t => t.readData = some 1 && t.status = 1) = true := by decide

theorem test_pixw_stores : nextSat (exec (.pixw 0 0x00C8C8C8) State.reset) (fun t => t.pix = [(0, 0x00C8C8C8)]) = true := by decide
theorem test_pixw_refused : refusedWith (exec (.pixw 4294836225 0) oneDot) (.pixIndexOutOfRange 4294836225) = true := by decide
theorem test_pixr_returns : nextSat (exec (.pixr 0) oneDot) (fun t => t.readData = some 0xFFC8C8C8) = true := by decide
theorem test_dmw_keeps_order : nextSat (exec (.dmw 1 7) { oneDot with dm := [(0, 1), (2, 3)] })
    (fun t => t.dm = [(0, 1), (1, 7), (2, 3)]) = true := by decide
theorem test_dmr_returns : nextSat (exec (.dmr 0) oneDot) (fun t => t.readData = some 1) = true := by decide

/-- V-X4. -/
theorem test_cmd_reserved_op : nextSat (exec (.cmd 0xFF) oneDot) (fun t => t.status = 4 && t.cause = 2) = true := by decide

/-- V-X24: BUSY_ACCESS outranks ILLEGAL_COMMAND. -/
theorem test_cmd_busy_first : nextSat (exec (.cmd 0x00) encoding) (fun t => t.status = 5 && t.cause = 3) = true := by decide

/-- Section 8, step 2: A1 is the last byte of LS_SET. -/
theorem test_sinkAccept_last_byte : nextSat (exec .sinkAccept { encoding with j := 1, out := [0xA0] })
    (fun t => t.out = [0xA0, 0xA1] && t.phase = .eLs24 && t.j = 0) = true := by decide

/-- Section 8: for V-F6 the last CTL_LF leaves OFFSET = 48 and completes. -/
theorem test_sinkAccept_last_band : nextSat (exec .sinkAccept lastBand)
    (fun t => t.out = [0xEE] && t.phase = .idle && t.offset = 48 && t.status = 2) = true := by decide

/-- V-X15: RESET clears the faults and the configuration. -/
theorem test_reset_clears : nextSat (exec .reset faulted)
    (fun t => t.status = 0 && t.cause = 0 && t.cmdLen.get 7 = 0 && t.threshold = 127) = true := by decide

/-- V-P6 to V-P8 (the matrix of V-F6). -/
theorem test_colByte_vectors :
    [(0, 0), (0, 8), (0, 16), (0, 24), (0, 32), (1, 24), (2, 24)].map (fun p => lastBand.colByte p.1 p.2)
      = [0x92, 0x49, 0x24, 0x90, 0x00, 0x24, 0x48] := by decide

/-- Section 3: 0x11223344 has luminance 54; a pure red has 76. -/
theorem test_luma_vectors : sampleLuma Config.btq 0x11223344 = 54 ∧ sampleLuma Config.btq 0xFF0000FF = 76 := by decide

/-- R96: the first greys at which the two evaluations differ, and (0, 23, 13). -/
theorem test_binary64_vectors :
    (List.range 130).filter (fun g => lumaBinary64 (BitVec.ofNat 8 g) (BitVec.ofNat 8 g) (BitVec.ofNat 8 g) != g)
      = [1, 2, 4, 5, 8, 10, 16, 20, 21, 31, 32, 39, 40, 41, 42, 55, 57, 59, 61, 62, 63, 64, 78, 80, 82, 84, 101, 103,
         105, 107, 109, 110, 114, 118, 122, 124, 126, 128]
    ∧ lumaBinary64 0 23 13 = 14 ∧ lumaBinary64 0 0 10 = 1 := by decide

/-- V-F12: with DEGENERATE_POLICY = NOTHING an ENCODE completes at acceptance. -/
theorem test_degenerate_nothing : nextSat (execIn { Config.btq with degenerate := .nothing } .encodeN testcfg)
    (fun t => t.status = 2 && t.phase = .idle && t.out = []) = true := by decide

/-- V-X10: a smaller memory gives CAPACITY_ERROR. -/
theorem test_capacity : nextSat (execIn { Config.btq with maxPixels := 1024 } (.cmd 0x10) { testcfg with width := 33, height := 32 })
    (fun t => t.status = 4 && t.cause = 4) = true := by decide

/-! ### A state that meets the hypotheses of each statement, clause by clause -/

theorem witness_step_decoded :
    { oneDot with agenda := [encode .quantize, encode .reset] }.agenda = encode .quantize :: [encode .reset]
      ∧ decode (encode .quantize) = .ok .quantize := by decide
theorem witness_step_illegal :
    { oneDot with agenda := [wordMove 0x30] }.agenda = wordMove 0x30 :: []
      ∧ decode (wordMove 0x30) = .error (.illegalCommandWord 0x30) := by decide
theorem witness_step_malformed :
    { oneDot with agenda := [⟨.rd, 0, 1⟩] }.agenda = ⟨.rd, 0, 1⟩ :: [] ∧ decode ⟨.rd, 0, 1⟩ = .error .strayOperand
      ∧ ∀ c, Reject.strayOperand ≠ .illegalCommandWord c := by decide
theorem witness_step_alone :
    quantizing.agenda = [] ∧ quantizing.phase = .qRun ∧ oneDot.agenda = [] ∧ oneDot.phase ≠ .qRun := by decide
theorem witness_table_word : decodeTableWord 8 0x2F = some (.encodeUnknown8to15 7) := by decide
theorem witness_decode : decode ⟨.wr, 0xFF, 0xFFFFFFFF⟩ = .ok (.wr 0xFF 0xFFFFFFFF) := by decide
/-- An idle block with no fault, and a command word for each clause of R69 at its boundary. -/
theorem witness_command_words :
    oneDot.busy = false ∧ oneDot.err = false
      ∧ ((0x00 : Byte).extractLsb' 4 4 ≠ 1 ∧ (0x00 : Byte).extractLsb' 4 4 ≠ 2)
      ∧ ((0x30 : Byte).extractLsb' 4 4 ≠ 1 ∧ (0x30 : Byte).extractLsb' 4 4 ≠ 2)
      ∧ ((0x11 : Byte).extractLsb' 4 4 = 1 ∧ (0x11 : Byte).extractLsb' 0 4 ≠ 0)
      ∧ ((0x24 : Byte).extractLsb' 4 4 = 2 ∧ 4 ≤ ((0x24 : Byte).extractLsb' 0 4).toNat)
      ∧ ((0x10 : Byte).extractLsb' 4 4 = 1 ∧ (0x10 : Byte).extractLsb' 0 4 = 0)
      ∧ (0x20 : Byte).extractLsb' 0 4 = 0 ∧ (0x21 : Byte).extractLsb' 0 4 = 1 ∧ (0x22 : Byte).extractLsb' 0 4 = 2
      ∧ ((0x23 : Byte).extractLsb' 4 4 = 2 ∧ (0x23 : Byte).extractLsb' 0 4 = 3) := by decide
theorem witness_command_row : decodeCommand 0x2F = .ok (.encodeUnknown8to15 7) := by decide
theorem witness_register : decodeReg Config.btq 0xF7 = some (.cmdByte 7 7)
    ∧ ∀ n j, Reg.cmdByte 7 7 = .cmdByte n j → j.val < 8 := by decide
/-- Register numbers at the two ends of each unmapped range, and next to them. -/
theorem witness_register_ranges :
    [0x06, 0x0F, 0x18, 0x7F, 0x88, 0xFF].all (fun r => registerMapped Config.btq r = false) = true
      ∧ [0x05, 0x10, 0x17, 0x80, 0x87, 0xF7].all (fun r => registerMapped Config.btq r = true) = true := by decide
theorem witness_wr :
    registerMapped Config.btq 0x88 = false ∧ registerMapped Config.btq 0x05 = true ∧ encoding.busy = true
      ∧ oneDot.busy = false ∧ (0x05 : BitVec 8) ≠ 0x00 ∧ (0x05 : BitVec 8) ≠ 0x01 ∧ (0x05 : BitVec 8) ≠ 0x02
      ∧ (0x04 : BitVec 8) ≠ 0x05 ∧ nextSat (exec (.rd 0x04) oneDot) (fun u => u.readData = some 1) = true := by decide
/-- V-X8: CMD_LEN[5] = 9. -/
theorem witness_wr_long_length : 8 < (9 : Word).toNat % 16 ∧ oneDot.busy = false
    ∧ nextSat (exec (.wr (BitVec.ofNat 8 (0x10 + (5 : Fin 8).val)) 9) oneDot) (fun t => t.cmdLen.get 5 = 9) = true := by decide
theorem witness_rd : (7 : Fin 16).val < 8 := by decide
theorem witness_memory_indices :
    4294836225 ≤ (4294836225 : BitVec 32).toNat ∧ (4294836224 : BitVec 32).toNat < 4294836225
      ∧ 134213633 ≤ (134213633 : BitVec 27).toNat ∧ (134213632 : BitVec 27).toNat < 134213633
      ∧ encoding.busy = true ∧ oneDot.busy = false := by decide
theorem witness_config_wf : Config.btq.wf = true := by decide
/-- All eight entries are present, on a matrix within capacity. -/
theorem witness_encode_starts :
    oneDot.busy = false ∧ oneDot.err = false
      ∧ (∀ n : Fin 8, 1 ≤ (oneDot.cmdLen.get n).toNat ∧ (oneDot.cmdLen.get n).toNat ≤ 8)
      ∧ oneDot.width.toNat * oneDot.height.toNat ≤ Config.btq.maxPixels
      ∧ (0x2F : Byte).extractLsb' 4 4 = 2 := by decide
theorem witness_unknown_words : 0x24 ≤ (0x24 : Byte).toNat ∧ (0x2F : Byte).toNat ≤ 0x2F := by decide
theorem witness_missing_entry :
    noLf.busy = false ∧ noLf.err = false
      ∧ (∃ n : Fin 8, (noLf.cmdLen.get n).toNat = 0 ∨ 8 < (noLf.cmdLen.get n).toNat)
      ∧ (0x20 : Byte).extractLsb' 4 4 = 2 := by decide
/-- A faulted idle block: QUANTIZE is dropped, so CAUSE stays 1. -/
theorem witness_quantize_keeps_config_error :
    nextSat (exec .quantize faulted) (fun t => t.cause = 1) = true := by decide
theorem witness_capacity :
    ({ testcfg with width := 33, height := 32 } : State).busy = false
      ∧ ({ testcfg with width := 33, height := 32 } : State).err = false
      ∧ (∀ n : Fin 8, 1 ≤ (testcfg.cmdLen.get n).toNat ∧ (testcfg.cmdLen.get n).toNat ≤ 8)
      ∧ 1024 < (33 : BitVec 16).toNat * (32 : BitVec 16).toNat
      ∧ nextSat (exec (.rd 0) { faulted with cause := 4 }) (fun t => t.cause = 4) = true := by decide
theorem witness_fault_entry :
    encoding.busy = true ∧ registerMapped Config.btq 0x00 = true ∧ oneDot.busy = false ∧ oneDot.err = false
      ∧ noLf.busy = false ∧ noLf.err = false ∧ noLf.cmdLen.get 7 = 0 := by decide
theorem witness_busy_read :
    encoding.busy = true ∧ (∃ r, Instr.rd 0x01 = .rd r) ∧ nextSat (exec (.rd 0x01) encoding) (fun _ => true) = true :=
  ⟨by decide, ⟨_, rfl⟩, by decide⟩
theorem witness_faulted : faulted.busy = false ∧ faulted.err = true ∧ faulted.cause ≠ 0 ∧ faulted.phase = .idle
    ∧ Instr.rd 0x01 ≠ .reset ∧ nextSat (exec (.rd 0x01) faulted) (fun t => t.readData = some 4) = true := by decide
/-- OUT: a byte accepted, RESET, and another move. -/
theorem witness_out : nextSat (exec .sinkAccept encoding) (fun t => t.out = [0xA0]) = true
    ∧ nextSat (exec .reset encoding) (fun t => t.out = []) = true
    ∧ nextSat (exec (.rd 0x01) encoding) (fun t => t.out = []) = true := by decide
theorem witness_named_moves : Instr.qstep ≠ .reset ∧ (∀ r v, Instr.qstep ≠ .wr r v)
    ∧ nextSat (exec .qstep quantizing) (fun t => t.width = 1) = true :=
  ⟨by decide, by simp, by decide⟩
/-- Moves of which each clause on DM and on the value read is about one. -/
theorem witness_named_moves_memory :
    (∀ n v, Instr.rd 0x01 ≠ .pixw n v) ∧ (∀ a v, Instr.rd 0x01 ≠ .dmw a v) ∧ Instr.rd 0x01 ≠ .qstep
      ∧ (∀ r, Instr.sinkAccept ≠ .rd r) ∧ (∀ n, Instr.sinkAccept ≠ .pixr n) ∧ (∀ a, Instr.sinkAccept ≠ .dmr a) :=
  by simp
theorem witness_offered_held : encoding.busy = true ∧ encoding.phase.emitting = true ∧ Instr.wr 0x05 0 ≠ .sinkAccept
    ∧ Instr.wr 0x05 0 ≠ .reset ∧ nextSat (exec (.wr 0x05 0) encoding) (fun t => t.err) = true := by decide
theorem witness_threshold :
    sampleLuma Config.btq 0x007F7F7F = (127 : BitVec 8).toNat ∧ dotOf Config.btq 0 0x00010101 = true := by decide
theorem witness_alpha : ∀ n, n < 24 → (0x00C8C8C8 : Word).getLsbD n = (0xFFC8C8C8 : Word).getLsbD n := by decide
/-- A QSTEP that fills no word, one that fills a word, and one that is the last. -/
theorem witness_qstep :
    quantizing.phase = .qRun ∧ quantizing.i.toNat < 4294836225
      ∧ quantizing.i.toNat + 1 = quantizing.width.toNat * quantizing.height.toNat
      ∧ ¬ ((0 : BitVec 32).toNat % 32 = 31 ∨ (0 : BitVec 32).toNat + 1 = (33 : BitVec 16).toNat * (1 : BitVec 16).toNat)
      ∧ (31 : BitVec 32).toNat % 32 = 31 := by decide
/-- A QUANTIZE of one pixel, from acceptance to completion, and the boundary indices of its one word. -/
theorem witness_quantize_run :
    oneDot.busy = false ∧ oneDot.err = false ∧ oneDot.width.toNat * oneDot.height.toNat ≠ 0
      ∧ nextSat (exec .quantize oneDot) (fun t => t.busy) = true
      ∧ nextSat (repeatMove (oneDot.width.toNat * oneDot.height.toNat) .qstep quantizing) (fun u => u.done) = true
      ∧ 0 < oneDot.width.toNat * oneDot.height.toNat ∧ 31 < 32 * oneDot.matrixWords ∧ oneDot.matrixWords ≤ 1
      ∧ 0 < oneDot.width.toNat ∧ 7 < 8 := by decide
theorem witness_colByte : 0 < 1 ∧ 7 < 8 := by decide
/-- A state for each clause of the SINK.ACCEPT statement. -/
theorem witness_sinkAccept :
    oneDot.phase = .idle ∧ quantizing.phase = .qRun
      ∧ encoding.phase = .eLs ∧ encoding.j.toNat < 8
      ∧ ({ encoding with phase := .eLs24 } : State).phase = .eLs24
      ∧ ({ encoding with phase := .eSize } : State).phase = .eSize
      ∧ ({ encoding with phase := .eBop } : State).phase = .eBop
      ∧ ({ encoding with phase := .eWlo } : State).phase = .eWlo
      ∧ ({ encoding with phase := .eWhi } : State).phase = .eWhi
      ∧ ({ encoding with phase := .eData } : State).phase = .eData ∧ encoding.fast = true
      ∧ encoding.x.toNat < encoding.width.toNat
      ∧ ({ lastBand with phase := .eData } : State).phase = .eData ∧ lastBand.fast = false
      ∧ lastBand.x.toNat < lastBand.width.toNat
      ∧ lastBand.phase = .eLf ∧ lastBand.j.toNat < 8 := by decide
/-- An ENCODE of one dot is accepted, its stream has at least one byte, and its first byte goes out. -/
theorem witness_encode_run :
    oneDot.busy = false ∧ oneDot.err = false ∧ (0x20 : Byte).extractLsb' 4 4 = 2
      ∧ (∀ n : Fin 8, 1 ≤ (oneDot.cmdLen.get n).toNat ∧ (oneDot.cmdLen.get n).toNat ≤ 8)
      ∧ nextSat (exec (.cmd 0x20) oneDot) (fun t => t.busy) = true
      ∧ 0 < (encodeStream Config.btq oneDot.width oneDot.height oneDot.readDm (effectiveMode ((0x20 : Byte).extractLsb' 0 4))
          oneDot.cmdStr).length
      ∧ effectiveMode ((0x20 : Byte).extractLsb' 0 4) = effectiveMode ((0x2F : Byte).extractLsb' 0 4) := by decide
/-- Two states with one matrix and one command set, which differ in threshold and in what OUT holds. -/
theorem witness_same_matrix : sameMatrix oneDot { oneDot with threshold := 3, out := [7] }
    ∧ oneDot.cmdLen = ({ oneDot with threshold := 3, out := [7] } : State).cmdLen
    ∧ oneDot.cmdByte = ({ oneDot with threshold := 3, out := [7] } : State).cmdByte
    ∧ nextSat (exec (.cmd 0x2F) { oneDot with threshold := 3, out := [7] }) (fun t => t.busy) = true :=
  ⟨⟨rfl, rfl, fun _ _ => rfl⟩, rfl, rfl, by decide⟩
theorem witness_pad_bits : ∀ p, p < (1 : BitVec 16).toNat * (1 : BitVec 16).toNat →
    ((fun _ : Nat => (1 : Word)) (p / 32)).getLsbD (p % 32) = ((fun _ : Nat => (0xFFFFFFFF : Word)) (p / 32)).getLsbD (p % 32) := by
  decide
/-- The invariant holds in the middle of an ENCODE and in the middle of a QUANTIZE. -/
theorem witness_invariant_encoding : encoding.Inv Config.btq := ⟨by decide, by decide, by decide, by decide⟩
theorem witness_invariant_last_band : lastBand.Inv Config.btq := ⟨by decide, by decide, by decide, by decide⟩
theorem witness_invariant_quantizing : quantizing.Inv Config.btq := ⟨by decide, by decide, by decide, by decide⟩
theorem witness_offset : nextSat (exec .sinkAccept lastBand) (fun t => t.offset = 48) = true := by decide
theorem witness_invariant_step : nextSat (step quantizing) (fun t => t.done) = true := by decide
/-- Each of the two moves with an enabling condition is enabled somewhere. -/
theorem witness_enabled :
    Instr.sinkAccept.wf = true ∧ (Instr.sinkAccept = .sinkAccept → encoding.phase.emitting = true)
      ∧ (Instr.sinkAccept = .qstep → encoding.phase = .qRun)
      ∧ Instr.qstep.wf = true ∧ (Instr.qstep = .qstep → quantizing.phase = .qRun) := by decide
/-- The end of a run after a QUANTIZE of `oneDot`; and an idle run with DONE = 0, which is no such end (log 20). -/
def ended : State := { oneDot with done := true }
theorem witness_ended : ended.endedWell = true ∧ ended.Inv Config.btq ∧ oneDot.endedWell = false :=
  ⟨by decide, ⟨by decide, by decide, by decide, by decide⟩, by decide⟩
/-- A move for each change of a flag: BUSY up (and DONE down), BUSY down (and DONE up), DONE up at acceptance, ERR and CAUSE. -/
theorem witness_flag_moves :
    nextSat (exec (.wr 0x00 0x20) ended) (fun t => t.busy && !t.done) = true
      ∧ nextSat (exec .qstep quantizing) (fun t => !t.busy && t.done) = true
      ∧ nextSat (exec .quantize testcfg) (fun t => !t.busy && t.done) = true
      ∧ nextSat (exec (.dmw 0 0) quantizing) (fun t => t.err && decide (t.cause = 3)) = true := by decide
/-- States in which the two moves are not enabled, and states no run reaches at the first value beyond each range. -/
theorem witness_stops :
    oneDot.phase = .idle ∧ quantizing.phase = .qRun ∧ encoding.phase ≠ .qRun
      ∧ 8 ≤ ({ encoding with j := 8 } : State).j.toNat
      ∧ ({ encoding with phase := .eData, x := 1 } : State).width.toNat ≤ (1 : BitVec 16).toNat
      ∧ 4294836225 ≤ (4294836225 : BitVec 32).toNat := by decide
/-- ENCODE.Q of one dot: the size opcode B3 B3 B3 B3 follows A0 A1 18 (30_encoding.md R79, 95_test_vectors.md section 1). -/
theorem witness_size_opcode :
    nextSat (exec .encodeQ oneDot) (fun t =>
      nextSat (repeatMove ((oneDot.cmdStr 0).length + 1 + (oneDot.cmdStr 4).length) .sinkAccept t)
        (fun u => u.out = [0xA0, 0xA1, 0x18, 0xB3, 0xB3, 0xB3, 0xB3])) = true := by decide
theorem witness_canonical : Memory.wf [(0, 1), (2, 3)] = true := by decide

/-- The stops are reached where their docstrings say. -/
theorem test_refusals :
    refusedWith (exec .sinkAccept oneDot) .nothingOffered && refusedWith (exec .qstep oneDot) .notQuantizing
      && refusedWith (exec (.wr 0x06 0) oneDot) (.unmappedRegister 0x06)
      && refusedWith (exec (.dmr 134213633) oneDot) (.dmIndexOutOfRange 134213633)
      && refusedWith (step { oneDot with agenda := [⟨.rd, 0, 1⟩] }) (.malformedMove .strayOperand) = true := by decide
theorem test_faults :
    faultsWith (exec .sinkAccept { encoding with j := 8 }) (.cmdByteAbsent 0 8)
      && faultsWith (exec .sinkAccept { encoding with phase := .eData, x := 1 }) (.colByteUndefined 1)
      && faultsWith (exec .qstep { quantizing with i := 4294836225 }) (.pixelAbsent 4294836225) = true := by decide

end Sys2Proof.Tests
end

/-! PROOFS. The family 10_state.md: what WR and RD do with each register number, and what every reset leaves behind. -/

namespace Sys2Proof

/-- The numbers R25 leaves unmapped, read off the list of mapped ones at CMD_MAXLEN = 8. -/
theorem registerMapped_btq_eq_false_iff (r : BitVec 8) :
    registerMapped Config.btq r = false ↔
      (0x06 ≤ r.toNat ∧ r.toNat ≤ 0x0F) ∨ (0x18 ≤ r.toNat ∧ r.toNat ≤ 0x7F)
        ∨ (0x80 ≤ r.toNat ∧ 8 ≤ r.toNat % 16) := by
  have hmaxlen : Config.btq.cmdMaxlen = 8 := rfl
  simp only [registerMapped, Bool.or_eq_false_iff, Bool.and_eq_false_iff, decide_eq_false_iff_not]
  omega

theorem decodeReg_btq_eq_none_iff (r : BitVec 8) :
    decodeReg Config.btq r = none ↔ registerMapped Config.btq r = false := by
  rw [← decodeReg_isSome_iff_mapped, Option.isSome_eq_false_iff, Option.isNone_iff_eq_none]

end Sys2Proof

namespace Sys2Proof.Machine

section Transactions

variable {cfg : Config} {r : BitVec 8} {reg : Reg}

/-! WR and RD, case by case of what the register number names (43_host_access.md R148, R149). -/

theorem wrIn_of_unmapped (h : decodeReg cfg r = none) (v : Word) (s : State) :
    wrIn cfg r v s = .refused (.unmappedRegister r) := by
  simp only [wrIn, h]

theorem wrIn_of_ctrl (h : decodeReg cfg r = some .ctrl) (v : Word) (s : State) :
    wrIn cfg r v s = commandIn cfg (v.setWidth 8) s := by
  simp only [wrIn, h]

theorem wrIn_of_register (h : decodeReg cfg r = some reg) (hreg : reg ≠ .ctrl) (v : Word) (s : State) :
    wrIn cfg r v s = .next (guardedWrite (fun t => t.writeReg v reg) s) := by
  simp only [wrIn, h]

theorem rdIn_of_unmapped (h : decodeReg cfg r = none) (s : State) :
    rdIn cfg r s = .refused (.unmappedRegister r) := by
  simp only [rdIn, h]

theorem rdIn_of_register (h : decodeReg cfg r = some reg) (s : State) :
    rdIn cfg r s = .next (s.returns (s.readReg reg)) := by
  simp only [rdIn, h]

/-- A WR to any register answers: a command write has a next state whatever the checks of R154 say, and so has a write
that R157 drops. -/
theorem wrIn_answers_of_mapped (h : decodeReg cfg r = some reg) (v : Word) (s : State) :
    ∃ t, wrIn cfg r v s = .next t := by
  by_cases hreg : reg = .ctrl
  · subst hreg
    exact ⟨_, wrIn_of_ctrl h v s⟩
  · exact ⟨_, wrIn_of_register h hreg v s⟩

end Transactions

/-- Settles O8: the ranges are exactly the numbers for which the decoder finds no register, and WR and RD are decided by
what the decoder finds. -/
theorem unmappedRegistersAreRefused : Obligations.UnmappedRegistersAreRefused := by
  intro r v s
  rw [← registerMapped_btq_eq_false_iff, ← decodeReg_btq_eq_none_iff]
  constructor
  · intro hnone
    exact ⟨wrIn_of_unmapped hnone v s, rdIn_of_unmapped hnone s⟩
  · intro hsome
    obtain ⟨reg, hreg⟩ := Option.ne_none_iff_exists'.mp hsome
    exact ⟨wrIn_answers_of_mapped hreg v s, _, rdIn_of_register hreg s⟩

/-- What R39 leaves open (CMD_BYTE) and the model's own fields do not matter to its table. -/
theorem State.resetWith_hasResetValues (cmdByte : Vector (Vector Byte 16) 8) (agenda : List Move)
    (readData : Option Word) (epoch draws : Nat) :
    (State.resetWith cmdByte agenda readData epoch draws).hasResetValues := by
  have hlen : ∀ n : Fin 8, (Vector.replicate 8 (0 : BitVec 4)).get n = 0 := by simp [Vector.get_eq_getElem]
  exact ⟨rfl, rfl, rfl, rfl, rfl, rfl, rfl, hlen, rfl, rfl, rfl, rfl, rfl, rfl, rfl, rfl, rfl, rfl⟩

theorem State.reset_hasResetValues : State.reset.hasResetValues := State.resetWith_hasResetValues ..

theorem State.afterReset_hasResetValues (cfg : Config) (s : State) : (s.afterReset cfg).hasResetValues :=
  State.resetWith_hasResetValues ..

theorem exec_reset (s : State) : exec .reset s = .next (s.afterReset Config.btq) := rfl

/-- Settles O15: the reset state and the state after RESET are both made by `State.resetWith`. -/
theorem resetGivesTheTableValues : Obligations.ResetGivesTheTableValues :=
  ⟨State.reset_hasResetValues, fun s => ⟨_, exec_reset s, State.afterReset_hasResetValues Config.btq s⟩⟩

end Sys2Proof.Machine

/-! PROOFS. The family 30_encoding.md: what a command write does, read off the fields OP and MODE of its word. -/

namespace Sys2Proof.Machine

/-! The words a command write refuses, as the model's test for them reads the two fields (30_encoding.md R69). -/

theorem commandIllegal_of_reserved_op {c : Byte} (hquantize : commandOp c ≠ opQuantize) (hencode : commandOp c ≠ opEncode) :
    commandIllegal c = true := by
  simp [commandIllegal, hquantize, hencode]

theorem commandIllegal_of_quantize_mode {c : Byte} (hop : commandOp c = opQuantize) (hmode : commandMode c ≠ 0) :
    commandIllegal c = true := by
  simpa [commandIllegal, hop] using hmode

theorem commandIllegal_quantize {c : Byte} (hop : commandOp c = opQuantize) (hmode : commandMode c = 0) :
    commandIllegal c = false := by
  have hne : opQuantize ≠ opEncode := by decide
  simp [commandIllegal, hop, hmode, hne]

theorem commandIllegal_encode {c : Byte} (hop : commandOp c = opEncode) : commandIllegal c = false := by
  have hne : opEncode ≠ opQuantize := by decide
  simp [commandIllegal, hop, hne]

/-- An unknown mode is the mode of ENCODE.N (30_encoding.md R68). -/
theorem effectiveMode_of_unknown {mode : BitVec 4} (h : 4 ≤ mode.toNat) : effectiveMode mode = effectiveMode 0 := by
  have hnot : ¬ mode.toNat ≤ 3 := by omega
  rw [effectiveMode, if_neg hnot]
  rfl

section CommandWrite

variable (cfg : Config) {c : Byte} {s : State}

theorem commandGate_of_idle {go : State → State} (hbusy : s.busy = false) (herr : s.err = false) :
    commandGate go s = go s := by
  simp [commandGate, hbusy, herr]

/-- R154, step 3: the word is dropped with ILLEGAL_COMMAND, the two earlier tests not applying. -/
theorem commandIn_of_illegal (hillegal : commandIllegal c = true) (hbusy : s.busy = false) (herr : s.err = false) :
    commandIn cfg c s = .next (s.raise .illegalCommand) := by
  rw [commandIn, commandGate_of_idle hbusy herr, decodedCommand, if_pos hillegal]

/-- The word of QUANTIZE has the effect of its row in every state: both meet the same tests of R154. -/
theorem commandIn_of_quantize (hop : commandOp c = opQuantize) (hmode : commandMode c = 0) (s : State) :
    commandIn cfg c s = quantizeIn cfg s := by
  have hdecoded : decodedCommand cfg c = acceptChecks cfg false startQuantize := by
    funext t
    have hnotEncode : commandOp c ≠ opEncode := by rw [hop]; decide
    simp only [decodedCommand, commandIllegal_quantize hop hmode, Bool.false_eq_true, if_false, if_neg hnotEncode]
  rw [commandIn, hdecoded, quantizeIn]

/-- A word with OP = ENCODE has the effect of ENCODE with its MODE field in every state. -/
theorem commandIn_of_encode (hop : commandOp c = opEncode) (s : State) :
    commandIn cfg c s = encodeIn cfg (commandMode c) s := by
  have hdecoded : decodedCommand cfg c = acceptChecks cfg true (startEncode cfg (effectiveMode (commandMode c))) := by
    funext t
    simp only [decodedCommand, commandIllegal_encode hop, Bool.false_eq_true, if_false, if_pos hop]
  rw [commandIn, hdecoded, encodeIn]

/-- ENCODE reads nothing of MODE but the effective mode. -/
theorem encodeIn_of_unknown_mode {mode : BitVec 4} (h : 4 ≤ mode.toNat) (s : State) :
    encodeIn cfg mode s = encodeIn cfg 0 s := by
  rw [encodeIn, effectiveMode_of_unknown h, encodeIn]

end CommandWrite

section CommandRows

variable {c : Byte} {s : State}

/-! The same for the transaction CMD of this hardware. -/

theorem exec_cmd (c : Byte) (s : State) : exec (.cmd c) s = commandIn Config.btq c s := rfl

theorem exec_cmd_of_illegal (hillegal : commandIllegal c = true) (hbusy : s.busy = false) (herr : s.err = false) :
    exec (.cmd c) s = .next (s.raise .illegalCommand) := by
  rw [exec_cmd, commandIn_of_illegal _ hillegal hbusy herr]

theorem exec_cmd_of_quantize (hop : commandOp c = opQuantize) (hmode : commandMode c = 0) (s : State) :
    exec (.cmd c) s = exec .quantize s := by
  rw [exec_cmd, commandIn_of_quantize _ hop hmode, exec_eq_execIn, execIn]

theorem exec_cmd_of_encode {mode : BitVec 4} (hop : commandOp c = opEncode) (hmode : commandMode c = mode) (s : State) :
    exec (.cmd c) s = encodeIn Config.btq mode s := by
  rw [exec_cmd, commandIn_of_encode _ hop, hmode]

theorem exec_cmd_of_encode_unknown (hop : commandOp c = opEncode) (hmode : 4 ≤ (commandMode c).toNat) (s : State) :
    exec (.cmd c) s = exec .encodeN s := by
  rw [exec_cmd_of_encode hop rfl, encodeIn_of_unknown_mode _ hmode, exec_eq_execIn, execIn]

end CommandRows

/-- Settles O5: each clause names one combination of OP and MODE. Only the two illegal ones use that the block is idle
and without fault; the legal words agree with their rows in every state. -/
theorem illegalAndReservedCommandWords : Obligations.IllegalAndReservedCommandWords := by
  intro c s hbusy herr
  refine ⟨?reservedOp, ?quantizeMode, ?unknownMode, ?quantize, ?encodeN, ?encode2W, ?encode2H, ?encodeQ⟩
  case reservedOp =>
    exact fun hquantize hencode => exec_cmd_of_illegal (commandIllegal_of_reserved_op hquantize hencode) hbusy herr
  case quantizeMode =>
    exact fun hop hmode => exec_cmd_of_illegal (commandIllegal_of_quantize_mode hop hmode) hbusy herr
  case unknownMode => exact fun hop hmode => exec_cmd_of_encode_unknown hop hmode s
  case quantize => exact fun hop hmode => exec_cmd_of_quantize hop hmode s
  case encodeN => exact fun hop hmode => exec_cmd_of_encode hop hmode s
  case encode2W => exact fun hop hmode => exec_cmd_of_encode hop hmode s
  case encode2H => exact fun hop hmode => exec_cmd_of_encode hop hmode s
  case encodeQ => exact fun hop hmode => exec_cmd_of_encode hop hmode s

end Sys2Proof.Machine

/-! PROOFS. The family 40_quantize.md: how QUANTIZE starts, and the way from a sample to its dot. -/

namespace Sys2Proof.Machine

section Acceptance

variable {cfg : Config} {s : State}

/-! From the command write to the start of the operation (43_host_access.md R154, 40_quantize.md R91, R104). -/

/-- The checks of R154, steps 4 and 5, all passed. -/
theorem acceptChecks_of_passed {needsConfig : Bool} (start : State → State)
    (hpresent : needsConfig = true → s.allPresent cfg = true) (hfits : s.pixels ≤ cfg.maxPixels) :
    acceptChecks cfg needsConfig start s = start s := by
  obtain ⟨hneeds, habsent, _⟩ | ⟨_, htoolarge, _⟩ | ⟨_, _, hstart⟩ := acceptChecks_cases cfg needsConfig start s
  · simp [hpresent hneeds] at habsent
  · exact absurd hfits (Nat.not_le.mpr htoolarge)
  · exact hstart

/-- QUANTIZE asks for no command-set entry: an idle block without fault starts it on every matrix that fits. -/
theorem quantizeIn_of_idle (hbusy : s.busy = false) (herr : s.err = false) (hfits : s.pixels ≤ cfg.maxPixels) :
    quantizeIn cfg s = .next (startQuantize s) := by
  rw [quantizeIn, commandGate_of_idle hbusy herr, acceptChecks_of_passed _ (by simp) hfits]

/-- N is at most 65535², so the default capacity refuses no matrix (R90). -/
theorem exec_quantize_of_idle (hbusy : s.busy = false) (herr : s.err = false) :
    exec .quantize s = .next (startQuantize s) := by
  rw [exec_eq_execIn]
  exact quantizeIn_of_idle hbusy herr s.pixels_le_default

theorem startQuantize_of_empty (h : s.pixels = 0) : startQuantize s = { s with done := true } := by
  rw [startQuantize, if_pos h, State.finishAtOnce]

theorem startQuantize_of_nonempty (h : s.pixels ≠ 0) :
    startQuantize s = { s with done := false, busy := true, phase := .qRun, i := 0, acc := 0 } := by
  rw [startQuantize, if_neg h, State.begin]

theorem exec_cmd_quantize (s : State) : exec (.cmd 0x10) s = exec .quantize s :=
  exec_cmd_of_quantize (by decide) (by decide) s

end Acceptance

/-- Settles O17: the row and its command word both reach `startQuantize`, which asks only whether N = 0. -/
theorem quantizeStarts : Obligations.QuantizeStarts := by
  intro s hbusy herr started
  have hstarted : startQuantize s = started := by
    by_cases hempty : s.pixels = 0
    · rw [startQuantize_of_empty hempty]
      exact (if_pos hempty).symm
    · rw [startQuantize_of_nonempty hempty]
      exact (if_neg hempty).symm
  rw [exec_cmd_quantize, exec_quantize_of_idle hbusy herr, hstarted]
  exact ⟨rfl, rfl⟩

section Luminance

variable (r g b : Byte)

/-! The luminance (40_quantize.md R92 to R95). -/

/-- The sum that R95 divides by 100 fits 15 bits: the weights add up to 100. -/
theorem weightedSum_le : 30 * r.toNat + 59 * g.toNat + 11 * b.toNat ≤ 25500 := by
  have hr := r.isLt
  have hg := g.isLt
  have hb := b.isLt
  omega

/-- R94: the luminance fits a byte. -/
theorem lumaExact_le : lumaExact r g b ≤ 255 :=
  Nat.div_le_of_le_mul (weightedSum_le r g b)

/-- R95: over the rationals the formula is the weighted sum divided by 100, and division of naturals is the floor of
that quotient. -/
theorem lumaExact_eq_floor :
    (lumaExact r g b : Int) = ⌊(3 / 10 : ℚ) * r.toNat + 59 / 100 * g.toNat + 11 / 100 * b.toNat⌋ := by
  have hquotient : (3 / 10 : ℚ) * r.toNat + 59 / 100 * g.toNat + 11 / 100 * b.toNat
      = ((30 * r.toNat + 59 * g.toNat + 11 * b.toNat : ℕ) : ℚ) / (100 : ℕ) := by
    push_cast
    ring
  rw [hquotient, Rat.floor_natCast_div_natCast, lumaExact, Int.natCast_div]

/-- R92 at the default `PIXEL_LAYOUT`: R, G and B are the three low lanes. -/
theorem sampleLuma_btq (p : Word) :
    sampleLuma Config.btq p = lumaExact (p.extractLsb' 0 8) (p.extractLsb' 8 8) (p.extractLsb' 16 8) := rfl

theorem sampleLuma_btq_le (p : Word) : sampleLuma Config.btq p ≤ 255 := by
  rw [sampleLuma_btq]
  exact lumaExact_le ..

end Luminance

/-- Settles O29: the weighted sum is the rational formula times 100, and it is taken of the lanes of the default layout. -/
theorem luminanceIsTheFormulaFloored : Obligations.LuminanceIsTheFormulaFloored :=
  ⟨fun r g b => ⟨lumaExact_eq_floor r g b, rfl, weightedSum_le r g b⟩, sampleLuma_btq⟩

section Dot

variable {cfg : Config} {threshold : BitVec 8} {p q : Word}

/-! From the luminance to the dot (40_quantize.md R97). -/

theorem dotOf_eq_true_iff : dotOf cfg threshold p = true ↔ threshold.toNat < sampleLuma cfg p := by
  rw [dotOf, decide_eq_true_iff]

theorem dotOf_eq_false_iff : dotOf cfg threshold p = false ↔ sampleLuma cfg p ≤ threshold.toNat := by
  rw [dotOf, decide_eq_false_iff_not, Nat.not_lt]

/-- The dot depends on the sample through its luminance only. -/
theorem dotOf_congr (h : sampleLuma cfg p = sampleLuma cfg q) : dotOf cfg threshold p = dotOf cfg threshold q := by
  rw [dotOf, dotOf, h]

end Dot

/-- Settles O30: the test is strict, and no luminance exceeds 255. -/
theorem thresholdIsStrict : Obligations.ThresholdIsStrict := by
  intro threshold p
  refine ⟨dotOf_eq_true_iff, ?equal, ?top, ?bottom⟩
  case equal => exact fun hequal => dotOf_eq_false_iff.mpr hequal.le
  case top =>
    rintro rfl
    exact dotOf_eq_false_iff.mpr (sampleLuma_btq_le p)
  case bottom =>
    rintro rfl
    exact dotOf_eq_true_iff

section Alpha

variable {p q : Word}

/-! What a sample's luminance reads of it (40_quantize.md R92, R106). -/

/-- A lane below the fourth is read off bits 23 to 0. -/
theorem lane_congr_of_low_bits (h : ∀ n, n < 24 → p.getLsbD n = q.getLsbD n) {k : Fin 4} (hk : k.val < 3) :
    lane p k = lane q k := by
  refine BitVec.eq_of_getLsbD_eq fun n hn => ?_
  have hbit : p.getLsbD (8 * k.val + n) = q.getLsbD (8 * k.val + n) := h _ (by omega)
  rw [lane, lane, BitVec.getLsbD_extractLsb', BitVec.getLsbD_extractLsb', hbit]

/-- The luminance reads the three component lanes and nothing else, however it is evaluated. -/
theorem sampleLuma_congr {cfg : Config} (hr : lane p cfg.layout.r = lane q cfg.layout.r)
    (hg : lane p cfg.layout.g = lane q cfg.layout.g) (hb : lane p cfg.layout.b = lane q cfg.layout.b) :
    sampleLuma cfg p = sampleLuma cfg q := by
  rw [sampleLuma, hr, hg, hb, sampleLuma]

end Alpha

/-- Settles O31: the default layout keeps R, G and B in the lanes below the fourth, which is alpha's. -/
theorem alphaIsIgnored : Obligations.AlphaIsIgnored := by
  intro threshold p q hlow
  have hlane : ∀ {k : Fin 4}, k.val < 3 → lane p k = lane q k := lane_congr_of_low_bits hlow
  exact dotOf_congr (sampleLuma_congr (hlane (by decide)) (hlane (by decide)) (hlane (by decide)))

end Sys2Proof.Machine

/-! PROOFS. The family 41_pack.md: the data byte, as bits and as a number. -/

namespace Sys2Proof.Machine

/-- A word is the sum of its bits, counted from the top: the bit at place `i` weighs 2 to the number of bits below it. -/
theorem toNat_eq_sum_getMsbD {n : Nat} (v : BitVec n) :
    v.toNat = ((List.range n).map fun i => if v.getMsbD i = true then 2 ^ (n - 1 - i) else 0).sum := by
  induction n with
  | zero => simp [BitVec.eq_nil v]
  | succ n ih =>
    have htop : v.msb.toNat <<< n = if v.getMsbD 0 = true then 2 ^ n else 0 := by
      rw [BitVec.msb]
      cases v.getMsbD 0 <;> simp [Nat.shiftLeft_eq]
    have hrest : ∀ i, (v.setWidth n).getMsbD i = v.getMsbD (i + 1) := fun i => by
      have hplace : i + (n + 1) - n = i + 1 := by omega
      simp [BitVec.getMsbD_setWidth, hplace]
    have hweight : ∀ i, n - 1 - i = n - (i + 1) := fun i => by omega
    calc v.toNat
        = (BitVec.cons v.msb (v.setWidth n)).toNat := by rw [BitVec.cons_msb_setWidth]
      _ = v.msb.toNat <<< n + (v.setWidth n).toNat := BitVec.toNat_cons'
      _ = _ := by
        rw [htop, ih, List.range_succ_eq_map, List.map_cons, List.sum_cons, List.map_map]
        simp only [Function.comp_def, hrest, hweight, Nat.succ_eq_add_one, Nat.add_sub_cancel, Nat.sub_zero]

section DataByte

variable (w h : Nat) (dm : Nat → Word) (x r0 : Nat)

/-! The data byte (41_pack.md R110). -/

theorem colDot_eq_ite (b : Nat) :
    colDot w h dm x r0 b =
      if r0 + b < h then (dm (((r0 + b) * w + x) / 32)).getLsbD (((r0 + b) * w + x) % 32) else false := rfl

theorem colDot_eq_true_iff (b : Nat) :
    colDot w h dm x r0 b = true ↔
      r0 + b < h ∧ (dm (((r0 + b) * w + x) / 32)).getLsbD (((r0 + b) * w + x) % 32) = true := by
  simp [colDot_eq_ite]

/-- The top row first: counted from the top, bit `b` is the dot of row `r0 + b`. -/
theorem colByte_getMsbD {b : Nat} (hb : b < 8) : (colByte w h dm x r0).getMsbD b = colDot w h dm x r0 b := by
  have hdots : ((List.range 8).map (colDot w h dm x r0)).getD b false = colDot w h dm x r0 b := by
    simp [List.getElem?_range hb]
  exact BitVec.getMsbD_ofBoolListBE.trans hdots

theorem colByte_getLsbD {b : Nat} (hb : b < 8) : (colByte w h dm x r0).getLsbD (7 - b) = colDot w h dm x r0 b := by
  rw [← colByte_getMsbD w h dm x r0 hb, BitVec.getMsbD_eq_getLsbD, decide_eq_true hb, Bool.true_and]

theorem colByte_toNat :
    (colByte w h dm x r0).toNat =
      ((List.range 8).map fun b => if colDot w h dm x r0 b = true then 2 ^ (7 - b) else 0).sum := by
  rw [toNat_eq_sum_getMsbD]
  refine congrArg List.sum (List.map_congr_left fun b hb => ?_)
  rw [colByte_getMsbD w h dm x r0 (List.mem_range.mp hb)]

end DataByte

/-- Settles O36: the byte's bits from the top are the dots from the first row down, and a byte is the sum of its bits.
Neither reading asks for the column to be below the width. -/
theorem colByteHasTheTopRowFirst : Obligations.ColByteHasTheTopRowFirst := by
  intro w h x r0 dm _
  refine ⟨fun b hb => ?bits, ?weightedSum⟩
  case bits => rw [colByte_getLsbD w h dm x r0 hb, colDot_eq_ite]
  case weightedSum => simp only [colByte_toNat, colDot_eq_true_iff]

end Sys2Proof.Machine

/-! PROOFS. The family 42_format.md: how ENCODE starts, what each accepted byte does, and the stream of an ENCODE. -/

namespace Sys2Proof.Machine

section Acceptance

variable {cfg : Config} {s : State}

/-! From the command write to the start of the operation (42_format.md R126, R142). -/

/-- With every entry present an idle block without fault starts ENCODE on every matrix that fits. -/
theorem encodeIn_of_idle (mode : BitVec 4) (hbusy : s.busy = false) (herr : s.err = false)
    (hpresent : s.allPresent cfg = true) (hfits : s.pixels ≤ cfg.maxPixels) :
    encodeIn cfg mode s = .next (startEncode cfg (effectiveMode mode) s) := by
  rw [encodeIn, commandGate_of_idle hbusy herr, acceptChecks_of_passed _ (fun _ => hpresent) hfits]

theorem State.degenerate_iff (s : State) : s.degenerate = true ↔ s.width = 0 ∨ s.height = 0 := by
  simp [State.degenerate]

/-- R126 as one equation: only the policy NOTHING makes a degenerate matrix complete at the acceptance. -/
theorem startEncode_eq (cfg : Config) (m : BitVec 2) (s : State) :
    startEncode cfg m s =
      if (s.width = 0 ∨ s.height = 0) ∧ cfg.degenerate = .nothing then
        { s with
          done := true, modeL := m, fast := decide (s.height.toNat ≤ 8), offset := 0, x := 0, k := 0, j := 0 }
      else
        { s with
          done := false, busy := true, phase := .eLs, modeL := m, fast := decide (s.height.toNat ≤ 8)
          offset := 0, x := 0, k := 0, j := 0 } := by
  simp only [startEncode, Bool.and_eq_true, State.degenerate_iff, decide_eq_true_eq]
  rfl

/-- The state of this hardware right after an ENCODE of effective mode `m` was accepted. -/
def encodeStarted (m : BitVec 2) (s : State) : State :=
  { s with
    done := false, busy := true, phase := .eLs, modeL := m, fast := decide (s.height.toNat ≤ 8)
    offset := 0, x := 0, k := 0, j := 0 }

/-- The default policy has bytes to emit for a degenerate matrix too, so every start goes on. -/
theorem startEncode_btq (m : BitVec 2) (s : State) : startEncode Config.btq m s = encodeStarted m s := by
  have hpolicy : Config.btq.degenerate ≠ .nothing := by decide
  rw [startEncode_eq, if_neg fun h => hpolicy h.2, encodeStarted]

/-- N is at most 65535², so of the tests of R154 only the command set can refuse an ENCODE of this hardware. -/
theorem encodeIn_btq_of_idle (mode : BitVec 4) (hbusy : s.busy = false) (herr : s.err = false)
    (hpresent : ∀ n : Fin 8, 1 ≤ (s.cmdLen.get n).toNat ∧ (s.cmdLen.get n).toNat ≤ 8) :
    encodeIn Config.btq mode s = .next (encodeStarted (effectiveMode mode) s) := by
  have hall : s.allPresent Config.btq = true := (s.allPresent_iff _).mpr hpresent
  rw [encodeIn_of_idle mode hbusy herr hall s.pixels_le_default, startEncode_btq]

end Acceptance

section UnknownModes

/-! The modes 4 to 15 (42_format.md R142), as operands of their rows and as the MODE field of a command word. -/

theorem exec_encodeUnknown4to7 (low : BitVec 2) (s : State) : exec (.encodeUnknown4to7 low) s = exec .encodeN s := by
  have hunknown : ∀ low : BitVec 2, 4 ≤ (0b01#2 ++ low).toNat := by decide
  exact encodeIn_of_unknown_mode _ (hunknown low) s

theorem exec_encodeUnknown8to15 (low : BitVec 3) (s : State) : exec (.encodeUnknown8to15 low) s = exec .encodeN s := by
  have hunknown : ∀ low : BitVec 3, 4 ≤ (0b1#1 ++ low).toNat := by decide
  exact encodeIn_of_unknown_mode _ (hunknown low) s

theorem commandOp_toNat (c : Byte) : (commandOp c).toNat = c.toNat / 16 := by
  have hc := c.isLt
  rw [commandOp, BitVec.extractLsb'_toNat, Nat.shiftRight_eq_div_pow]
  omega

theorem commandMode_toNat (c : Byte) : (commandMode c).toNat = c.toNat % 16 := by
  rw [commandMode, BitVec.extractLsb'_toNat, Nat.shiftRight_zero]

end UnknownModes

/-- Settles O19: ENCODE reads of its MODE field the effective mode only; OP and MODE are the two digits of the word. -/
theorem unknownModesAreNormal : Obligations.UnknownModesAreNormal := by
  refine ⟨exec_encodeUnknown4to7, exec_encodeUnknown8to15, fun c s hlow hhigh => ?_⟩
  have hop : commandOp c = opEncode := by
    have hdigit : c.toNat / 16 = 2 := by omega
    exact BitVec.eq_of_toNat_eq ((commandOp_toNat c).trans hdigit)
  have hmode : 4 ≤ (commandMode c).toNat := by
    rw [commandMode_toNat]
    omega
  exact exec_cmd_of_encode_unknown hop hmode s

/-- Settles O18: past the tests of R154 the start is `startEncode`, whose degenerate case this hardware's policy rules
out; the six rows and the command words differ in their mode only. -/
theorem encodeStarts : Obligations.EncodeStarts := by
  refine ⟨?anyParameters, ?rows⟩
  case anyParameters =>
    intro cfg mode s hbusy herr hpresent hfits
    rw [encodeIn_of_idle mode hbusy herr ((s.allPresent_iff _).mpr hpresent) hfits, startEncode_eq]
  case rows =>
    intro s hbusy herr hpresent started
    have hstarts (mode : BitVec 4) : encodeIn Config.btq mode s = .next (started (effectiveMode mode)) :=
      encodeIn_btq_of_idle mode hbusy herr hpresent
    refine ⟨hstarts 0, hstarts 1, hstarts 2, hstarts 3, fun low => ?_, fun low => ?_, fun c hop => ?_⟩
    · exact (exec_encodeUnknown4to7 low s).trans (hstarts 0)
    · exact (exec_encodeUnknown8to15 low s).trans (hstarts 0)
    · exact (exec_cmd_of_encode hop rfl s).trans (hstarts _)

section Accept

variable {cfg : Config} {s : State} {n : Fin 8}

/-! The byte offered and the transition taken on its acceptance, phase by phase (42_format.md R136). -/

theorem exec_sinkAccept_of_offered {b : Byte} (h : offered Config.btq s = .next b) :
    exec .sinkAccept s = .next ((advance s).emit b) := by
  rw [exec_eq_execIn, execIn, sinkAcceptIn, h]

theorem not_offered_of_idle (h : s.phase = .idle) (b : Byte) : offered cfg s ≠ .next b := by
  simp [offered, h]

theorem not_offered_of_qRun (h : s.phase = .qRun) (b : Byte) : offered cfg s ≠ .next b := by
  simp [offered, h]

theorem emittedEntry_of_eLs (h : s.phase = .eLs) : s.emittedEntry = some entryLsSet := by
  simp only [State.emittedEntry, h]

theorem emittedEntry_of_eSize (h : s.phase = .eSize) : s.emittedEntry = some (sizeEntry s.modeL) := by
  simp only [State.emittedEntry, h]

theorem emittedEntry_of_eBop (h : s.phase = .eBop) : s.emittedEntry = some (bandEntry s.fast) := by
  simp only [State.emittedEntry, h]

theorem emittedEntry_of_eLf (h : s.phase = .eLf) : s.emittedEntry = some entryCtlLf := by
  simp only [State.emittedEntry, h]

/-- In a phase that emits an entry the byte offered is that entry's byte J. -/
theorem offered_of_emittedEntry (hentry : s.emittedEntry = some n) (hj : s.j.toNat < cfg.cmdMaxlen) :
    offered cfg s = .next (s.byteOf n s.j.toFin) := by
  have hoffered : offered cfg s = offerStored cfg s n := by
    unfold State.emittedEntry at hentry
    unfold offered
    split at hentry <;> simp_all
  rw [hoffered, offerStored, if_pos hj]

theorem offered_of_eLs24 (h : s.phase = .eLs24) : offered cfg s = .next 0x18 := by
  simp only [offered, h]

theorem offered_of_eWlo (h : s.phase = .eWlo) : offered cfg s = .next (widthLo s.width) := by
  simp only [offered, h]

theorem offered_of_eWhi (h : s.phase = .eWhi) : offered cfg s = .next (widthHi s.width) := by
  simp only [offered, h]

/-- The default capacity leaves every column of the matrix in COLBYTE's domain. -/
theorem offered_of_eData (h : s.phase = .eData) (hx : s.x.toNat < s.width.toNat) :
    offered Config.btq s = .next (s.colByte s.x.toNat (dataRow s)) := by
  simp only [offered, h, offerData, hx, s.pixels_le_default, and_self, if_true]

theorem offered_of_eData_fast (h : s.phase = .eData) (hfast : s.fast = true) (hx : s.x.toNat < s.width.toNat) :
    offered Config.btq s = .next (s.colByte s.x.toNat 0) := by
  rw [offered_of_eData h hx, dataRow, if_pos hfast]

theorem offered_of_eData_banded (h : s.phase = .eData) (hbanded : s.fast = false) (hx : s.x.toNat < s.width.toNat) :
    offered Config.btq s = .next (s.colByte s.x.toNat (s.offset.toNat + 8 * s.k.toNat)) := by
  rw [offered_of_eData h hx, dataRow, hbanded, if_neg Bool.false_ne_true]

theorem advance_of_eLs (h : s.phase = .eLs) :
    advance s = if s.j.toNat + 1 = (s.lenOf entryLsSet).toNat then { s with j := 0, phase := .eLs24 }
      else { s with j := s.j + 1 } := by
  simp only [advance, h, advanceLs, lastByteOf, decide_eq_true_eq]

theorem advance_of_eLs24 (h : s.phase = .eLs24) : advance s = { s with phase := .eSize } := by
  simp only [advance, h]

theorem advance_of_eSize (h : s.phase = .eSize) :
    advance s = if s.j.toNat + 1 = (s.lenOf (sizeEntry s.modeL)).toNat then
        (if s.width = 0 ∨ s.height = 0 then { s with j := 0, phase := .idle, busy := false, done := true }
          else { s with j := 0, phase := .eBop })
      else { s with j := s.j + 1 } := by
  simp only [advance, h, advanceSize, lastByteOf, decide_eq_true_eq, State.degenerate_iff, State.finish]

theorem advance_of_eBop (h : s.phase = .eBop) :
    advance s = if s.j.toNat + 1 = (s.lenOf (bandEntry s.fast)).toNat then { s with j := 0, phase := .eWlo }
      else { s with j := s.j + 1 } := by
  simp only [advance, h, advanceBop, lastByteOf, decide_eq_true_eq]

theorem advance_of_eWlo (h : s.phase = .eWlo) : advance s = { s with phase := .eWhi } := by
  simp only [advance, h]

theorem advance_of_eWhi (h : s.phase = .eWhi) : advance s = { s with x := 0, k := 0, phase := .eData } := by
  simp only [advance, h]

theorem advance_of_eData_fast (h : s.phase = .eData) (hfast : s.fast = true) :
    advance s = if s.x.toNat + 1 = s.width.toNat then { s with phase := .idle, busy := false, done := true }
      else { s with x := s.x + 1 } := by
  simp only [advance, h, advanceData, hfast, if_true, lastColumn, decide_eq_true_eq, State.finish]

theorem advance_of_eData_banded (h : s.phase = .eData) (hbanded : s.fast = false) :
    advance s = if s.k.toNat < 2 then { s with k := s.k + 1 }
      else if s.x.toNat + 1 = s.width.toNat then { s with k := 0, j := 0, phase := .eLf }
      else { s with k := 0, x := s.x + 1 } := by
  simp only [advance, h, advanceData, hbanded, Bool.false_eq_true, if_false, lastColumn, decide_eq_true_eq]

theorem advance_of_eLf (h : s.phase = .eLf) :
    advance s = if s.j.toNat + 1 = (s.lenOf entryCtlLf).toNat then
        (if s.offset.toNat + 24 < s.height.toNat then { s with j := 0, offset := s.offset + 24, phase := .eBop }
          else { s with j := 0, offset := s.offset + 24, phase := .idle, busy := false, done := true })
      else { s with j := s.j + 1 } := by
  simp only [advance, h, advanceLf, lastByteOf, decide_eq_true_eq, State.finish]

/-- The byte is appended whichever way the transition goes. -/
theorem State.emit_ite (p : Prop) [Decidable p] (t u : State) (b : Byte) :
    (if p then t else u).emit b = if p then t.emit b else u.emit b :=
  apply_ite (State.emit · b) p t u

/-- R79: the size opcodes of the modes 0 to 3 are the entries 1 to 4. -/
theorem sizeEntry_eq : ∀ m : BitVec 2,
    sizeEntry m = if m = 0 then 1 else if m = 1 then 2 else if m = 2 then 3 else 4 := by
  decide

/-- SINK.ACCEPT in a phase that emits entry `n`, from the byte registers alone. -/
theorem exec_sinkAccept_of_emittedEntry (hentry : s.emittedEntry = some n) (hj : s.j.toNat < 8) :
    exec .sinkAccept s = .next ((advance s).emit (s.byteOf n s.j.toFin)) :=
  exec_sinkAccept_of_offered (offered_of_emittedEntry hentry hj)

end Accept

/-- Settles O37: each clause puts the byte offered in its phase and the transition of that phase together. -/
theorem sinkAcceptTakesEachTransition : Obligations.SinkAcceptTakesEachTransition := by
  intro s len stored size bop
  refine ⟨?answers, ?eLs, ?eLs24, ?eSize, ?eBop, ?eWlo, ?eWhi, ?fastData, ?bandedData, ?eLf⟩
  case answers =>
    intro t ht
    obtain ⟨b, hb, _⟩ := sinkAcceptIn_next ht
    exact ⟨fun hidle => not_offered_of_idle hidle b hb, fun hrun => not_offered_of_qRun hrun b hb⟩
  case eLs =>
    intro hphase hj
    rw [exec_sinkAccept_of_emittedEntry (emittedEntry_of_eLs hphase) hj, advance_of_eLs hphase]
    simp only [State.emit_ite]
    rfl
  case eLs24 =>
    intro hphase
    rw [exec_sinkAccept_of_offered (offered_of_eLs24 hphase), advance_of_eLs24 hphase]
    rfl
  case eSize =>
    intro hphase hj
    have hsize : sizeEntry s.modeL = size := sizeEntry_eq s.modeL
    rw [exec_sinkAccept_of_emittedEntry (emittedEntry_of_eSize hphase) hj, advance_of_eSize hphase, hsize]
    simp only [State.emit_ite]
    rfl
  case eBop =>
    intro hphase hj
    rw [exec_sinkAccept_of_emittedEntry (emittedEntry_of_eBop hphase) hj, advance_of_eBop hphase]
    simp only [State.emit_ite]
    rfl
  case eWlo =>
    intro hphase
    rw [exec_sinkAccept_of_offered (offered_of_eWlo hphase), advance_of_eWlo hphase]
    rfl
  case eWhi =>
    intro hphase
    rw [exec_sinkAccept_of_offered (offered_of_eWhi hphase), advance_of_eWhi hphase]
    rfl
  case fastData =>
    intro hphase hfast hx sent
    rw [exec_sinkAccept_of_offered (offered_of_eData_fast hphase hfast hx), advance_of_eData_fast hphase hfast]
    simp only [State.emit_ite]
    rfl
  case bandedData =>
    intro hphase hbanded hx sent
    rw [exec_sinkAccept_of_offered (offered_of_eData_banded hphase hbanded hx),
      advance_of_eData_banded hphase hbanded]
    simp only [State.emit_ite]
    rfl
  case eLf =>
    intro hphase hj
    rw [exec_sinkAccept_of_emittedEntry (emittedEntry_of_eLf hphase) hj, advance_of_eLf hphase]
    simp only [State.emit_ite]
    rfl

/-- `Sends s bytes u`: from `s` the block offers the bytes one after another, each after the transition of the one
before, and the transition of the last one leads to `u`. OUT, which no offer and no transition reads, stays aside. -/
inductive Sends : State → List Byte → State → Prop where
  | nil (s : State) : Sends s [] s
  | cons {s u : State} {b : Byte} {bytes : List Byte} (hoffered : offered Config.btq s = .next b)
      (hrest : Sends (advance s) bytes u) : Sends s (b :: bytes) u

/-- The state with OUT replaced. -/
def State.withOut (s : State) (o : List Byte) : State := { s with out := o }

section Sends

variable {s t u : State} {bytes more : List Byte}

theorem Sends.append (h : Sends s bytes t) (hmore : Sends t more u) : Sends s (bytes ++ more) u := by
  induction h with
  | nil s => exact hmore
  | cons hoffered _ ih => exact .cons hoffered (ih hmore)

theorem Sends.single {b : Byte} (hoffered : offered Config.btq s = .next b) (hadvance : advance s = u) :
    Sends s [b] u :=
  hadvance ▸ .cons hoffered (.nil _)

theorem State.withOut_ite (p : Prop) [Decidable p] (t u : State) (o : List Byte) :
    (if p then t else u).withOut o = if p then t.withOut o else u.withOut o :=
  apply_ite (State.withOut · o) p t u

theorem offered_withOut (cfg : Config) (s : State) (o : List Byte) : offered cfg (s.withOut o) = offered cfg s := rfl

theorem advance_withOut (s : State) (o : List Byte) : advance (s.withOut o) = (advance s).withOut o := by
  have hout : ∀ {p}, s.phase = p → (s.withOut o).phase = p := id
  cases h : s.phase
  case idle => simp only [advance, hout h, h]
  case qRun => simp only [advance, hout h, h]
  case eLs => simp only [advance_of_eLs, hout h, h, State.withOut_ite]; rfl
  case eLs24 => rw [advance_of_eLs24 h, advance_of_eLs24 (hout h)]; rfl
  case eSize => simp only [advance_of_eSize, hout h, h, State.withOut_ite]; rfl
  case eBop => simp only [advance_of_eBop, hout h, h, State.withOut_ite]; rfl
  case eWlo => rw [advance_of_eWlo h, advance_of_eWlo (hout h)]; rfl
  case eWhi => rw [advance_of_eWhi h, advance_of_eWhi (hout h)]; rfl
  case eData => simp only [advance, advanceData, hout h, h, State.withOut_ite]; rfl
  case eLf => simp only [advance_of_eLf, hout h, h, State.withOut_ite]; rfl

/-- What `Sends` says of the machine: so many SINK.ACCEPTs answer, and OUT has grown by the bytes. -/
theorem Sends.run_withOut (h : Sends s bytes u) (o : List Byte) :
    repeatMove bytes.length .sinkAccept (s.withOut o) = .next (u.withOut (o ++ bytes)) := by
  induction h generalizing o with
  | nil s => simp [repeatMove]
  | @cons s u b bytes hoffered _ ih =>
    have haccept : exec .sinkAccept (s.withOut o) = .next ((advance s).withOut (o ++ [b])) := by
      rw [exec_sinkAccept_of_offered ((offered_withOut ..).trans hoffered), advance_withOut]
      rfl
    rw [List.length_cons, repeatMove, haccept]
    simpa using ih (o ++ [b])

theorem Sends.run (h : Sends s bytes u) :
    repeatMove bytes.length .sinkAccept s = .next (u.withOut (s.out ++ bytes)) :=
  h.run_withOut s.out

end Sends

section Strings

variable {s u : State} {n : Fin 8}

/-! The strings of the command-set store, byte by byte (10_state.md R33, 42_format.md R136). -/

theorem State.cmdStr_length (s : State) (n : Fin 8) : (s.cmdStr n).length = (s.lenOf n).toNat := by
  have := (s.lenOf n).isLt
  rw [State.cmdStr, List.length_take, Vector.length_toList]
  omega

theorem State.cmdStr_drop (hj : s.j.toNat < (s.lenOf n).toNat) :
    (s.cmdStr n).drop s.j.toNat = s.byteOf n s.j.toFin :: (s.cmdStr n).drop (s.j.toNat + 1) := by
  have hlength : s.j.toNat < (s.cmdStr n).length := by rwa [State.cmdStr_length]
  have hbyte : (s.cmdStr n)[s.j.toNat] = s.byteOf n s.j.toFin := by
    simp [State.cmdStr, State.byteOf, Vector.get_eq_getElem]
  rw [List.drop_eq_getElem_cons hlength, hbyte]

/-- Before its last byte an entry goes on with its next one. -/
theorem advance_of_emittedEntry (hentry : s.emittedEntry = some n) (hmore : s.j.toNat + 1 ≠ (s.lenOf n).toNat) :
    advance s = { s with j := s.j + 1 } := by
  cases h : s.phase
  case eLs =>
    obtain rfl := Option.some.inj ((emittedEntry_of_eLs h).symm.trans hentry)
    rw [advance_of_eLs h, if_neg hmore, h]
  case eSize =>
    obtain rfl := Option.some.inj ((emittedEntry_of_eSize h).symm.trans hentry)
    rw [advance_of_eSize h, if_neg hmore, h]
  case eBop =>
    obtain rfl := Option.some.inj ((emittedEntry_of_eBop h).symm.trans hentry)
    rw [advance_of_eBop h, if_neg hmore, h]
  case eLf =>
    obtain rfl := Option.some.inj ((emittedEntry_of_eLf h).symm.trans hentry)
    rw [advance_of_eLf h, if_neg hmore, h]
  all_goals simp [State.emittedEntry, h] at hentry

/-- The rest of a string goes out, and then the transition of its last byte is taken. -/
theorem sends_rest_of_string (hentry : s.emittedEntry = some n) (hlen : (s.lenOf n).toNat ≤ 8) (left : Nat)
    (hleft : s.j.toNat + (left + 1) = (s.lenOf n).toNat) (hlast : advance { s with j := s.lenOf n - 1 } = u) :
    Sends s ((s.cmdStr n).drop s.j.toNat) u := by
  induction left generalizing s with
  | zero =>
    have hoffered := offered_of_emittedEntry (cfg := Config.btq) hentry (show s.j.toNat < 8 by omega)
    have hindex : s.lenOf n - 1 = s.j := by bv_omega
    have hend : (s.cmdStr n).length ≤ s.j.toNat + 1 := by rw [State.cmdStr_length]; omega
    rw [hindex] at hlast
    rw [State.cmdStr_drop (by omega), List.drop_eq_nil_of_le hend]
    exact .single hoffered hlast
  | succ left ih =>
    have hoffered := offered_of_emittedEntry (cfg := Config.btq) hentry (show s.j.toNat < 8 by omega)
    have hnext : (s.j + 1).toNat = s.j.toNat + 1 := by bv_omega
    have hleft' : (s.j + 1).toNat + (left + 1) = (s.lenOf n).toNat := by omega
    rw [State.cmdStr_drop (by omega), ← hnext]
    refine .cons hoffered ?_
    rw [advance_of_emittedEntry hentry (by omega)]
    exact ih (s := { s with j := s.j + 1 }) hentry hlen hleft' hlast

/-- A whole string goes out. -/
theorem sends_string (hentry : s.emittedEntry = some n) (hj : s.j = 0)
    (hlen : 1 ≤ (s.lenOf n).toNat ∧ (s.lenOf n).toNat ≤ 8)
    (hlast : advance { s with j := s.lenOf n - 1 } = u) : Sends s (s.cmdStr n) u := by
  have hstart : s.j.toNat = 0 := by rw [hj]; rfl
  have hrest := sends_rest_of_string hentry hlen.2 ((s.lenOf n).toNat - 1) (by omega) hlast
  rwa [hstart, List.drop_zero] at hrest

/-- The index of a present entry's last byte, as `advance` tests for it. -/
theorem lastIndex_add_one {len : BitVec 4} (h : 1 ≤ len.toNat) : (len - 1).toNat + 1 = len.toNat := by
  bv_omega

end Strings

section Segments

variable {s : State}

/-! The segments of a stream (30_encoding.md R77): what the block sends of each, and where that leads. -/

/-- What opens every stream: a degenerate matrix ends after it (42_format.md R133). -/
theorem sends_streamPrefix (hpresent : ∀ n, 1 ≤ (s.lenOf n).toNat ∧ (s.lenOf n).toNat ≤ 8)
    (hphase : s.phase = .eLs) (hj : s.j = 0) :
    Sends s (streamPrefix s.modeL s.cmdStr)
      (if s.width = 0 ∨ s.height = 0 then { s with j := 0, phase := .idle, busy := false, done := true }
        else { s with j := 0, phase := .eBop }) := by
  have hls : Sends s (s.cmdStr entryLsSet) { s with j := 0, phase := .eLs24 } :=
    sends_string (emittedEntry_of_eLs hphase) hj (hpresent _)
      ((advance_of_eLs (s := { s with j := s.lenOf entryLsSet - 1 }) hphase).trans
        (if_pos (lastIndex_add_one (hpresent _).1)))
  have hliteral : Sends { s with j := 0, phase := .eLs24 } [0x18] { s with j := 0, phase := .eSize } :=
    .single (offered_of_eLs24 rfl) (advance_of_eLs24 rfl)
  have hsize : Sends { s with j := 0, phase := .eSize } (s.cmdStr (sizeEntry s.modeL)) _ :=
    sends_string (emittedEntry_of_eSize rfl) rfl (hpresent _)
      ((advance_of_eSize rfl).trans (if_pos (lastIndex_add_one (hpresent _).1)))
  exact (hls.append hliteral).append hsize

/-- The band opcode and the width field, which open a band on either path. -/
theorem sends_bandHead (hpresent : ∀ n, 1 ≤ (s.lenOf n).toNat ∧ (s.lenOf n).toNat ≤ 8)
    (hphase : s.phase = .eBop) (hj : s.j = 0) :
    Sends s (s.cmdStr (bandEntry s.fast) ++ widthField s.width) { s with j := 0, x := 0, k := 0, phase := .eData } := by
  have hopcode : Sends s (s.cmdStr (bandEntry s.fast)) { s with j := 0, phase := .eWlo } :=
    sends_string (emittedEntry_of_eBop hphase) hj (hpresent _)
      ((advance_of_eBop (s := { s with j := s.lenOf (bandEntry s.fast) - 1 }) hphase).trans
        (if_pos (lastIndex_add_one (hpresent _).1)))
  have hlow : Sends { s with j := 0, phase := .eWlo } [widthLo s.width] { s with j := 0, phase := .eWhi } :=
    .single (offered_of_eWlo rfl) (advance_of_eWlo rfl)
  have hhigh : Sends { s with j := 0, phase := .eWhi } [widthHi s.width]
      { s with j := 0, x := 0, k := 0, phase := .eData } :=
    .single (offered_of_eWhi rfl) (advance_of_eWhi rfl)
  exact hopcode.append (hlow.append hhigh)

/-- The columns from X on, on the fast path: the block completes after the last one. -/
theorem sends_fastColumns (hphase : s.phase = .eData) (hfast : s.fast = true) (left : Nat)
    (hleft : s.x.toNat + (left + 1) = s.width.toNat) :
    Sends s ((List.range' s.x.toNat (left + 1)).map fun x => s.colByte x 0)
      { s with x := s.width - 1, phase := .idle, busy := false, done := true } := by
  induction left generalizing s with
  | zero =>
    have hlast : s.width - 1 = s.x := by bv_omega
    rw [hlast]
    exact .single (offered_of_eData_fast hphase hfast (by omega))
      ((advance_of_eData_fast hphase hfast).trans (if_pos hleft))
  | succ left ih =>
    have hnext : (s.x + 1).toNat = s.x.toNat + 1 := by bv_omega
    have hleft' : (s.x + 1).toNat + (left + 1) = s.width.toNat := by omega
    rw [List.range'_succ, List.map_cons, ← hnext]
    refine .cons (offered_of_eData_fast hphase hfast (by omega)) ?_
    rw [advance_of_eData_fast hphase hfast, if_neg (by omega)]
    exact ih (s := { s with x := s.x + 1 }) hphase hfast hleft'

/-- One column of the banded path: three bytes, and then the next column or CTL_LF. -/
theorem sends_bandedColumn (hphase : s.phase = .eData) (hbanded : s.fast = false) (hk : s.k = 0)
    (hx : s.x.toNat < s.width.toNat) :
    Sends s ((List.range 3).map fun k => s.colByte s.x.toNat (s.offset.toNat + 8 * k))
      (if s.x.toNat + 1 = s.width.toNat then { s with k := 0, j := 0, phase := .eLf }
        else { s with k := 0, x := s.x + 1 }) := by
  have hfirst : Sends s [s.colByte s.x.toNat (s.offset.toNat + 8 * 0)] { s with k := 1 } := by
    have hoffered := offered_of_eData_banded hphase hbanded hx
    have hadvance := advance_of_eData_banded hphase hbanded
    rw [hk] at hoffered hadvance
    exact .single hoffered hadvance
  have hsecond : Sends { s with k := 1 } [s.colByte s.x.toNat (s.offset.toNat + 8 * 1)] { s with k := 2 } :=
    .single (offered_of_eData_banded hphase hbanded hx) (advance_of_eData_banded hphase hbanded)
  have hthird : Sends { s with k := 2 } [s.colByte s.x.toNat (s.offset.toNat + 8 * 2)] _ :=
    .single (offered_of_eData_banded hphase hbanded hx) (advance_of_eData_banded hphase hbanded)
  exact hfirst.append (hsecond.append hthird)

/-- The columns from X on, on the banded path: CTL_LF comes after the last one. -/
theorem sends_bandedColumns (hphase : s.phase = .eData) (hbanded : s.fast = false) (hk : s.k = 0) (left : Nat)
    (hleft : s.x.toNat + (left + 1) = s.width.toNat) :
    Sends s ((List.range' s.x.toNat (left + 1)).flatMap fun x =>
        (List.range 3).map fun k => s.colByte x (s.offset.toNat + 8 * k))
      { s with x := s.width - 1, k := 0, j := 0, phase := .eLf } := by
  induction left generalizing s with
  | zero =>
    have hcolumn := sends_bandedColumn hphase hbanded hk (by omega)
    have hlast : s.width - 1 = s.x := by bv_omega
    rw [if_pos hleft] at hcolumn
    rw [hlast, List.range'_one, List.flatMap_singleton]
    exact hcolumn
  | succ left ih =>
    have hcolumn := sends_bandedColumn hphase hbanded hk (by omega)
    have hnext : (s.x + 1).toNat = s.x.toNat + 1 := by bv_omega
    have hleft' : (s.x + 1).toNat + (left + 1) = s.width.toNat := by omega
    rw [if_neg (by omega)] at hcolumn
    rw [List.range'_succ, List.flatMap_cons, ← hnext]
    exact hcolumn.append (ih (s := { s with k := 0, x := s.x + 1 }) hphase hbanded rfl hleft')

/-- One band of the banded path, and then the next band if its first row is a row of the matrix. -/
theorem sends_band (hpresent : ∀ n, 1 ≤ (s.lenOf n).toNat ∧ (s.lenOf n).toNat ≤ 8)
    (hphase : s.phase = .eBop) (hj : s.j = 0) (hbanded : s.fast = false) (hwidth : 1 ≤ s.width.toNat) :
    Sends s (band s.width s.height s.readDm s.cmdStr s.offset.toNat)
      (if s.offset.toNat + 24 < s.height.toNat then
          { s with j := 0, x := s.width - 1, k := 0, offset := s.offset + 24, phase := .eBop }
        else { s with
          j := 0, x := s.width - 1, k := 0, offset := s.offset + 24
          phase := .idle, busy := false, done := true }) := by
  have hopcode : bandEntry s.fast = entryBitImage33 := by rw [hbanded]; rfl
  have hhead := sends_bandHead hpresent hphase hj
  rw [hopcode] at hhead
  have hcolumns := sends_bandedColumns (s := { s with j := 0, x := 0, k := 0, phase := .eData }) rfl hbanded rfl
    (s.width.toNat - 1) (show 0 + _ = s.width.toNat by omega)
  rw [Nat.sub_add_cancel hwidth] at hcolumns
  have hlf : Sends { s with x := s.width - 1, k := 0, j := 0, phase := .eLf } (s.cmdStr entryCtlLf) _ :=
    sends_string (emittedEntry_of_eLf rfl) rfl (hpresent _)
      ((advance_of_eLf rfl).trans (if_pos (lastIndex_add_one (hpresent _).1)))
  rw [band, List.range_eq_range' (n := s.width.toNat)]
  exact (hhead.append hcolumns).append hlf

/-- The state `u` is `s` with its ENCODE completed: besides, only the sequencer's OFFSET, X, K and J may differ. -/
def State.CompletedAs (s u : State) : Prop :=
  u = { s with
    phase := .idle, busy := false, done := true, offset := u.offset, x := u.x, k := u.k, j := u.j }

/-- The bands from number `b` on, `left + 1` of them: the first row of band `b` is row 24·b. -/
theorem sends_bands_from (hpresent : ∀ n, 1 ≤ (s.lenOf n).toNat ∧ (s.lenOf n).toNat ≤ 8)
    (hphase : s.phase = .eBop) (hj : s.j = 0) (hbanded : s.fast = false) (hwidth : 1 ≤ s.width.toNat) (b left : Nat)
    (hoffset : s.offset.toNat = 24 * b) (hleft : b + (left + 1) = bandCount s.height) :
    ∃ u, Sends s ((List.range' b (left + 1)).flatMap fun b => band s.width s.height s.readDm s.cmdStr (24 * b)) u
      ∧ s.CompletedAs u := by
  have hcount (h : BitVec 16) : bandCount h = (h.toNat + 23) / 24 := rfl
  induction left generalizing s b with
  | zero =>
    have hband := sends_band hpresent hphase hj hbanded hwidth
    have hlast : ¬ s.offset.toNat + 24 < s.height.toNat := by rw [hcount] at hleft; omega
    rw [if_neg hlast, hoffset] at hband
    rw [List.range'_one, List.flatMap_singleton]
    exact ⟨_, hband, rfl⟩
  | succ left ih =>
    have hband := sends_band hpresent hphase hj hbanded hwidth
    have hmore : s.offset.toNat + 24 < s.height.toNat := by rw [hcount] at hleft; omega
    have hnext : (s.offset + 24).toNat = 24 * (b + 1) := by
      have hheight := s.height.isLt
      bv_omega
    rw [if_pos hmore, hoffset] at hband
    obtain ⟨u, hrest, hcompleted⟩ :=
      ih (s := { s with j := 0, x := s.width - 1, k := 0, offset := s.offset + 24, phase := .eBop })
        hpresent rfl rfl hbanded hwidth (b + 1) hnext (by rw [← hleft]; ring)
    rw [List.range'_succ, List.flatMap_cons]
    exact ⟨u, hband.append hrest, hcompleted⟩

/-- All bands of a matrix that is not degenerate, on the path that FAST says. -/
theorem sends_bands (hpresent : ∀ n, 1 ≤ (s.lenOf n).toNat ∧ (s.lenOf n).toNat ≤ 8) (hphase : s.phase = .eBop)
    (hj : s.j = 0) (hfast : s.fast = decide (s.height.toNat ≤ 8)) (hoffset : s.offset = 0)
    (hmatrix : ¬ (s.width = 0 ∨ s.height = 0)) :
    ∃ u, Sends s (bands s.width s.height s.readDm s.cmdStr) u ∧ s.CompletedAs u := by
  obtain ⟨hwidth, hheight⟩ : 1 ≤ s.width.toNat ∧ 1 ≤ s.height.toNat := by
    rw [not_or] at hmatrix
    constructor <;> bv_omega
  rw [bands, if_neg hmatrix]
  split
  case isTrue hrows =>
    have hpath : s.fast = true := by rw [hfast, decide_eq_true hrows]
    have hopcode : bandEntry s.fast = entryBitImage1 := by rw [hpath]; rfl
    have hhead := sends_bandHead hpresent hphase hj
    rw [hopcode] at hhead
    have hcolumns := sends_fastColumns (s := { s with j := 0, x := 0, k := 0, phase := .eData }) rfl hpath
      (s.width.toNat - 1) (show 0 + _ = s.width.toNat by omega)
    rw [Nat.sub_add_cancel hwidth] at hcolumns
    rw [fastBand, List.range_eq_range']
    exact ⟨_, hhead.append hcolumns, rfl⟩
  case isFalse hrows =>
    have hpath : s.fast = false := by rw [hfast, decide_eq_false hrows]
    have hcount : 1 ≤ bandCount s.height := by rw [bandCount]; omega
    have hbands := sends_bands_from hpresent hphase hj hpath hwidth 0 (bandCount s.height - 1) (by rw [hoffset]; rfl)
      (by omega)
    rw [Nat.sub_add_cancel hcount] at hbands
    rwa [List.range_eq_range']

/-- A block that has just entered E_LS sends exactly the stream of R135, and completes. -/
theorem sends_stream (hpresent : ∀ n, 1 ≤ (s.lenOf n).toNat ∧ (s.lenOf n).toNat ≤ 8) (hphase : s.phase = .eLs)
    (hj : s.j = 0) (hfast : s.fast = decide (s.height.toNat ≤ 8)) (hoffset : s.offset = 0) :
    ∃ u, Sends s (s.stream Config.btq s.modeL) u ∧ s.CompletedAs u := by
  have hpolicy : ¬ ((s.width = 0 ∨ s.height = 0) ∧ Config.btq.degenerate = .nothing) := fun h =>
    absurd h.2 (by decide)
  have hopening := sends_streamPrefix hpresent hphase hj
  rw [State.stream, encodeStream, if_neg hpolicy]
  by_cases hmatrix : s.width = 0 ∨ s.height = 0
  · rw [if_pos hmatrix] at hopening
    rw [bands, if_pos hmatrix, List.append_nil]
    exact ⟨_, hopening, rfl⟩
  · rw [if_neg hmatrix] at hopening
    obtain ⟨u, hbands, hcompleted⟩ :=
      sends_bands (s := { s with j := 0, phase := .eBop }) hpresent rfl rfl hfast hoffset hmatrix
    exact ⟨u, hopening.append hbands, hcompleted⟩

end Segments

section EqualStreams

/-! What a stream depends on (42_format.md R135, R143). -/

/-- The column is in the matrix, so each row that is too lies at a pixel below N. -/
theorem colByte_congr {w h x : Nat} {dm dm' : Nat → Word} (hdots : ∀ p, p < w * h → dotAt dm p = dotAt dm' p)
    (hx : x < w) (r0 : Nat) : colByte w h dm x r0 = colByte w h dm' x r0 := by
  have hrow : colDot w h dm x r0 = colDot w h dm' x r0 := by
    funext b
    unfold colDot
    split
    · next hb =>
      refine hdots _ ?_
      calc pixelIndex w x (r0 + b) < (r0 + b) * w + w := Nat.add_lt_add_left hx _
        _ = (r0 + b + 1) * w := by ring
        _ ≤ h * w := Nat.mul_le_mul_right w hb
        _ = w * h := Nat.mul_comm h w
    · rfl
  rw [colByte, hrow, colByte]

section Bands

variable {w h : BitVec 16} {dm dm' : Nat → Word} (hdots : ∀ p, p < w.toNat * h.toNat → dotAt dm p = dotAt dm' p)
  (cs : Fin 8 → List Byte)

include hdots

theorem fastBand_congr : fastBand w h dm cs = fastBand w h dm' cs := by
  have hcolumns : ((List.range w.toNat).map fun x => colByte w.toNat h.toNat dm x 0)
      = (List.range w.toNat).map fun x => colByte w.toNat h.toNat dm' x 0 :=
    List.map_congr_left fun x hx => colByte_congr hdots (List.mem_range.mp hx) 0
  rw [fastBand, fastBand, hcolumns]

theorem band_congr (o : Nat) : band w h dm cs o = band w h dm' cs o := by
  have hcolumns : ((List.range w.toNat).flatMap fun x =>
        (List.range 3).map fun k => colByte w.toNat h.toNat dm x (o + 8 * k))
      = (List.range w.toNat).flatMap fun x =>
        (List.range 3).map fun k => colByte w.toNat h.toNat dm' x (o + 8 * k) :=
    List.flatMap_congr fun x hx =>
      List.map_congr_left fun k _ => colByte_congr hdots (List.mem_range.mp hx) (o + 8 * k)
  rw [band, band, hcolumns]

/-- A stream reads no bit of DM but the dots of its matrix. -/
theorem encodeStream_congr (cfg : Config) (m : BitVec 2) :
    encodeStream cfg w h dm m cs = encodeStream cfg w h dm' m cs := by
  have hband : band w h dm cs = band w h dm' cs := funext (band_congr hdots cs)
  simp only [encodeStream, bands, fastBand_congr hdots cs, hband]

end Bands

variable {s s' : State}

/-- Every dot of a matrix lies in its first NW words. -/
theorem dotAt_readDm_of_sameMatrix (h : sameMatrix s s') {p : Nat} (hp : p < s.width.toNat * s.height.toNat) :
    dotAt s.readDm p = dotAt s'.readDm p := by
  obtain ⟨_, _, hwords⟩ := h
  have hword : p / 32 < s.matrixWords := by rw [State.matrixWords, State.pixels]; omega
  rw [dotAt, dotAt, hwords _ hword]

theorem cmdStr_congr (hlen : s.cmdLen = s'.cmdLen) (hbyte : s.cmdByte = s'.cmdByte) : s.cmdStr = s'.cmdStr := by
  funext n
  simp only [State.cmdStr, State.lenOf, hlen, hbyte]

/-- R143: a stream is a function of the matrix, the effective mode and the command set. -/
theorem stream_congr (cfg : Config) (m : BitVec 2) (hmatrix : sameMatrix s s') (hlen : s.cmdLen = s'.cmdLen)
    (hbyte : s.cmdByte = s'.cmdByte) : s.stream cfg m = s'.stream cfg m := by
  obtain ⟨hwidth, hheight, _⟩ := id hmatrix
  rw [State.stream, State.stream, ← hwidth, ← hheight, ← cmdStr_congr hlen hbyte]
  exact encodeStream_congr (fun p => dotAt_readDm_of_sameMatrix hmatrix) _ cfg m

end EqualStreams

/-- An accepted ENCODE of this hardware, from the command word to the last byte of its stream. -/
theorem sends_stream_of_exec_cmd {c : Byte} {s t : State} (hbusy : s.busy = false) (herr : s.err = false)
    (hop : commandOp c = opEncode) (hpresent : ∀ n, 1 ≤ (s.lenOf n).toNat ∧ (s.lenOf n).toNat ≤ 8)
    (hexec : exec (.cmd c) s = .next t) :
    t = encodeStarted (effectiveMode (commandMode c)) s
      ∧ ∃ u, Sends t (s.stream Config.btq (effectiveMode (commandMode c))) u ∧ t.CompletedAs u := by
  rw [exec_cmd_of_encode hop rfl, encodeIn_btq_of_idle _ hbusy herr hpresent] at hexec
  obtain rfl := Host.Outcome.next.inj hexec
  exact ⟨rfl, sends_stream (s := encodeStarted (effectiveMode (commandMode c)) s) hpresent rfl rfl rfl rfl⟩

/-- Settles O39: both commands send the stream of their own state, and the two streams are one list. -/
theorem equalInputsGiveEqualStreams : Obligations.EqualInputsGiveEqualStreams := by
  intro c c' s s' t t' hbusy herr hbusy' herr' hop hop' hmode hmatrix hlen hbyte hpresent hexec hexec'
  obtain ⟨rfl, u, hsends, hcompleted⟩ := sends_stream_of_exec_cmd hbusy herr hop hpresent hexec
  obtain ⟨rfl, u', hsends', hcompleted'⟩ :=
    sends_stream_of_exec_cmd hbusy' herr' hop' (by rwa [hlen] at hpresent) hexec'
  have hsame : s'.stream Config.btq (effectiveMode (commandMode c'))
      = s.stream Config.btq (effectiveMode (commandMode c)) := by
    rw [stream_congr _ _ hmatrix hlen hbyte]
    exact congrArg _ hmode.symm
  rw [hsame] at hsends'
  have hidle := congrArg State.phase hcompleted
  have hidle' := congrArg State.phase hcompleted'
  exact ⟨_, _, _, hsends.run, hsends'.run, hidle, hidle', rfl, rfl⟩

end Sys2Proof.Machine

/-! PROOFS. The family 43_host_access.md: what a host's write does to a register, to PIX and to CTRL. -/

namespace Sys2Proof

/-- A register number is the number of the register it names: decoding loses no bit of it (30_encoding.md R72). -/
theorem encodeReg_of_decodeReg {cfg : Config} {r : BitVec 8} {reg : Reg} (h : decodeReg cfg r = some reg) :
    encodeReg reg = r := by
  unfold decodeReg at h
  split_ifs at h with hctrl hstatus hcause hwidth hheight hthreshold hlen hbyte <;> cases h
  · exact hctrl.symm
  · exact hstatus.symm
  · exact hcause.symm
  · exact hwidth.symm
  · exact hheight.symm
  · exact hthreshold.symm
  · apply BitVec.eq_of_toNat_eq
    have hdigits := congrArg BitVec.toNat hlen
    simp only [encodeReg, BitVec.extractLsb'_toNat, BitVec.toNat_ofNat, BitVec.val_toFin,
      Nat.shiftRight_eq_div_pow] at hdigits ⊢
    omega
  · apply BitVec.eq_of_toNat_eq
    have hdigits := congrArg BitVec.toNat hbyte.1
    simp only [encodeReg, BitVec.extractLsb'_toNat, BitVec.toNat_ofNat, BitVec.val_toFin,
      Nat.shiftRight_eq_div_pow] at hdigits ⊢
    omega

theorem exists_decodeReg_of_mapped {r : BitVec 8} (h : registerMapped Config.btq r = true) :
    ∃ reg, decodeReg Config.btq r = some reg := by
  rwa [← Option.isSome_iff_exists, decodeReg_isSome_iff_mapped]

theorem decodeReg_cmdLen : ∀ n : Fin 8, decodeReg Config.btq (BitVec.ofNat 8 (0x10 + n.val)) = some (.cmdLen n) := by
  decide

/-- The width of a register in bits (10_state.md R24), all that a write keeps of its value (43_host_access.md R159). -/
def Reg.bits : Reg → Nat
  | .ctrl | .status | .cause | .threshold => 8
  | .width | .height => 16
  | .cmdLen _ => 4
  | .cmdByte _ _ => 8

/-- The width of a register, read off its number. -/
theorem Reg.bits_eq (reg : Reg) :
    reg.bits = if encodeReg reg = 0x03 ∨ encodeReg reg = 0x04 then 16
      else if 0x10 ≤ (encodeReg reg).toNat ∧ (encodeReg reg).toNat ≤ 0x17 then 4 else 8 := by
  cases reg with
  | ctrl | status | cause | width | height | threshold => decide
  | cmdLen n => revert n; decide
  | cmdByte n j => revert n j; decide

end Sys2Proof

namespace Sys2Proof.Machine

section Registers

variable {reg reg' : Reg}

/-! A register read after a register write. -/

/-- A write touches the operand registers and the command-set store only. -/
theorem State.writeReg_frame (s : State) (v : Word) (reg : Reg) :
    s.writeReg v reg = { s with
      width := (s.writeReg v reg).width, height := (s.writeReg v reg).height
      threshold := (s.writeReg v reg).threshold, cmdLen := (s.writeReg v reg).cmdLen
      cmdByte := (s.writeReg v reg).cmdByte } := by
  cases reg <;> rfl

theorem setWidth_setWidth_eq_ofNat (v : Word) (k : Nat) :
    (v.setWidth k).setWidth 32 = BitVec.ofNat 32 (v.toNat % 2 ^ k) := by
  rw [← BitVec.toNat_setWidth, BitVec.ofNat_toNat]

/-- A writable register keeps the low bits of the value. -/
theorem State.readReg_writeReg_same (hctrl : reg ≠ .ctrl) (hstatus : reg ≠ .status) (hcause : reg ≠ .cause)
    (v : Word) (s : State) :
    (s.writeReg v reg).readReg reg = BitVec.ofNat 32 (v.toNat % 2 ^ reg.bits) := by
  cases reg with
  | ctrl => exact absurd rfl hctrl
  | status => exact absurd rfl hstatus
  | cause => exact absurd rfl hcause
  | width | height | threshold => exact setWidth_setWidth_eq_ofNat v _
  | cmdLen n =>
    simp only [State.writeReg, State.readReg, State.lenOf_setLen, if_true]
    exact setWidth_setWidth_eq_ofNat v 4
  | cmdByte n j =>
    simp only [State.writeReg, State.readReg, State.byteOf_setByte, and_self, if_true]
    exact setWidth_setWidth_eq_ofNat v 8

theorem State.readReg_writeReg_other (h : reg' ≠ reg) (v : Word) (s : State) :
    (s.writeReg v reg).readReg reg' = s.readReg reg' := by
  cases reg with
  | ctrl | status | cause => rfl
  | width =>
    cases reg' with
    | width => exact absurd rfl h
    | _ => rfl
  | height =>
    cases reg' with
    | height => exact absurd rfl h
    | _ => rfl
  | threshold =>
    cases reg' with
    | threshold => exact absurd rfl h
    | _ => rfl
  | cmdLen n =>
    cases reg' with
    | cmdLen m =>
      have hne : m ≠ n := fun heq => h (congrArg Reg.cmdLen heq)
      simp only [State.writeReg, State.readReg, State.lenOf_setLen, if_neg hne]
    | _ => rfl
  | cmdByte n j =>
    cases reg' with
    | cmdByte m l =>
      have hne : ¬ (m = n ∧ l = j) := fun heq => h (congrArg₂ Reg.cmdByte heq.1 heq.2)
      simp only [State.writeReg, State.readReg, State.byteOf_setByte, if_neg hne]
    | _ => rfl

end Registers

section Guard

variable {cfg : Config} {s : State}

/-! A write of the host, dropped while the block is busy and made while it is idle (43_host_access.md R148, R150, R157). -/

theorem guardedWrite_of_busy (store : State → State) (hbusy : s.busy = true) :
    guardedWrite store s = s.raise .busyAccess := by
  rw [guardedWrite, if_pos hbusy]

theorem guardedWrite_of_idle (store : State → State) (hidle : s.busy = false) : guardedWrite store s = store s := by
  simp [guardedWrite, hidle]

theorem pixwIn_of_absent {i : BitVec 32} (h : cfg.maxPixels ≤ i.toNat) (v : Word) (s : State) :
    pixwIn cfg i v s = .refused (.pixIndexOutOfRange i) := by
  rw [pixwIn, if_pos h]

theorem pixwIn_of_present {i : BitVec 32} (h : i.toNat < cfg.maxPixels) (v : Word) (s : State) :
    pixwIn cfg i v s = .next (guardedWrite (fun t => t.writePix i.toNat v) s) := by
  rw [pixwIn, if_neg (Nat.not_le.mpr h)]

end Guard

/-- Settles O11: the range decides whether PIXW is a move, BUSY whether the write is made, and a write of PIX reads back
as `State.readPix_writePix` says. -/
theorem pixwStoresOneSample : Obligations.PixwStoresOneSample := by
  refine ⟨fun i v s => ⟨?outOfRange, ?busy, ?idle⟩, by decide, by decide, by decide⟩
  case outOfRange => exact fun habsent => pixwIn_of_absent (cfg := Config.btq) habsent v s
  case busy =>
    intro hpresent hbusy
    rw [exec_eq_execIn, execIn, pixwIn_of_present hpresent, guardedWrite_of_busy _ hbusy]
    rfl
  case idle =>
    intro hpresent hidle
    refine ⟨s.writePix i.toNat v, ?_, rfl, s.readPix_writePix i.toNat v⟩
    rw [exec_eq_execIn, execIn, pixwIn_of_present hpresent, guardedWrite_of_idle _ hidle]

section CommandWrite

variable {cfg : Config} {c : Byte} {s : State}

/-! The tests of a command write in their order (43_host_access.md R154), each as a condition on the word, the command set
and the dimensions. -/

theorem commandIllegal_iff :
    commandIllegal c = true ↔
      (commandOp c ≠ opQuantize ∧ commandOp c ≠ opEncode) ∨ (commandOp c = opQuantize ∧ commandMode c ≠ 0) := by
  simp only [commandIllegal, Bool.or_eq_true, Bool.and_eq_true, decide_eq_true_eq]

/-- The configuration check fails on an entry of length 0 or of a length above CMD_MAXLEN (42_format.md R125). -/
theorem State.allPresent_eq_false_iff :
    s.allPresent cfg = false ↔ ∃ n : Fin 8, (s.cmdLen.get n).toNat = 0 ∨ cfg.cmdMaxlen < (s.cmdLen.get n).toNat := by
  rw [← Bool.not_eq_true, State.allPresent_iff, not_forall]
  refine exists_congr fun n => ?_
  rw [State.lenOf]
  omega

theorem acceptChecks_eq (cfg : Config) (needsConfig : Bool) (start : State → State) (s : State) :
    acceptChecks cfg needsConfig start s =
      if needsConfig = true ∧ ∃ n : Fin 8, (s.cmdLen.get n).toNat = 0 ∨ cfg.cmdMaxlen < (s.cmdLen.get n).toNat then
        s.raise .configError
      else if cfg.maxPixels < s.pixels then s.raise .capacityError
      else start s := by
  simp only [acceptChecks, Bool.and_eq_true, Bool.not_eq_true', State.allPresent_eq_false_iff]

/-- The latched mode as a function of the word (30_encoding.md R68). -/
theorem effectiveMode_commandMode (c : Byte) :
    effectiveMode (commandMode c) = if (c.extractLsb' 0 4).toNat ≤ 3 then c.extractLsb' 0 2 else 0 := by
  have hlow : (commandMode c).setWidth 2 = c.extractLsb' 0 2 := by
    rw [commandMode, BitVec.setWidth_extractLsb'_of_le (by decide)]
  rw [effectiveMode, hlow, commandMode]

/-- R154, steps 3 to 6, as one chain of tests: ENCODE alone asks for the command set. -/
theorem decodedCommand_eq (cfg : Config) (c : Byte) (s : State) :
    decodedCommand cfg c s =
      if (commandOp c ≠ opQuantize ∧ commandOp c ≠ opEncode) ∨ (commandOp c = opQuantize ∧ commandMode c ≠ 0) then
        s.raise .illegalCommand
      else if commandOp c = opEncode
          ∧ ∃ n : Fin 8, (s.cmdLen.get n).toNat = 0 ∨ cfg.cmdMaxlen < (s.cmdLen.get n).toNat then
        s.raise .configError
      else if cfg.maxPixels < s.pixels then s.raise .capacityError
      else if commandOp c = opQuantize then startQuantize s
      else startEncode cfg (effectiveMode (commandMode c)) s := by
  simp only [decodedCommand, commandIllegal_iff]
  refine if_ctx_congr Iff.rfl (fun _ => rfl) fun hlegal => ?_
  by_cases hencode : commandOp c = opEncode
  · have hnotQuantize : commandOp c ≠ opQuantize := by rw [hencode]; decide
    rw [if_pos hencode, if_neg hnotQuantize, acceptChecks_eq]
    simp only [hencode, true_and]
  · have hquantize : commandOp c = opQuantize := by
      by_contra hne
      exact hlegal (.inl ⟨hne, hencode⟩)
    rw [if_neg hencode, if_pos hquantize, acceptChecks_eq]
    simp only [hencode, Bool.false_eq_true, false_and]

end CommandWrite

/-- A WR to CTRL is a command write of its low eight bits (43_host_access.md R148). -/
theorem exec_wr_ctrl (v : Word) (s : State) : exec (.wr 0x00 v) s = exec (.cmd (v.setWidth 8)) s :=
  wrIn_of_ctrl (cfg := Config.btq) (r := 0x00) rfl v s

/-- Settles O16: the gate makes the tests on BUSY and ERR, `decodedCommand` the others in the order stated. -/
theorem commandWriteChecksInOrder : Obligations.CommandWriteChecksInOrder := by
  refine ⟨fun cfg c s => ?_, fun c s => exec_eq_execIn (.cmd c) s, exec_wr_ctrl⟩
  rw [execIn, commandIn, commandGate, decodedCommand_eq, effectiveMode_commandMode]
  rfl

section WholeEffect

variable {r : BitVec 8} {reg : Reg} {v : Word} {s : State}

/-! WR of this hardware on a mapped register (43_host_access.md R148): dropped while busy, else the register write. -/

theorem exec_wr_of_busy (hreg : decodeReg Config.btq r = some reg) (hbusy : s.busy = true) :
    exec (.wr r v) s = .next (s.raise .busyAccess) := by
  rw [exec_eq_execIn, execIn]
  by_cases hctrl : reg = .ctrl
  · subst hctrl
    rw [wrIn_of_ctrl hreg, commandIn, commandGate, if_pos hbusy]
  · rw [wrIn_of_register hreg hctrl, guardedWrite_of_busy _ hbusy]

theorem exec_wr_of_idle (hreg : decodeReg Config.btq r = some reg) (hctrl : reg ≠ .ctrl) (hidle : s.busy = false) :
    exec (.wr r v) s = .next (s.writeReg v reg) := by
  rw [exec_eq_execIn, execIn, wrIn_of_register hreg hctrl, guardedWrite_of_idle _ hidle]

theorem exec_rd_of_register (hreg : decodeReg Config.btq r = some reg) :
    exec (.rd r) s = .next (s.returns (s.readReg reg)) :=
  rdIn_of_register hreg s

/-- The register just written, as the next RD of its number shows it. -/
theorem rd_after_write_same (hreg : decodeReg Config.btq r = some reg) (hctrl : r ≠ 0x00) (hstatus : r ≠ 0x01)
    (hcause : r ≠ 0x02) :
    ∃ u, exec (.rd r) (s.writeReg v reg) = .next u
      ∧ u.readData = some (BitVec.ofNat 32 (v.toNat %
          2 ^ (if r = 0x03 ∨ r = 0x04 then 16 else if 0x10 ≤ r.toNat ∧ r.toNat ≤ 0x17 then 4 else 8))) := by
  obtain rfl := encodeReg_of_decodeReg hreg
  refine ⟨_, exec_rd_of_register hreg, ?_⟩
  rw [State.returns_readData, ← Reg.bits_eq, State.readReg_writeReg_same]
  case hctrl => exact fun h => hctrl (congrArg encodeReg h)
  case hstatus => exact fun h => hstatus (congrArg encodeReg h)
  case hcause => exact fun h => hcause (congrArg encodeReg h)

/-- Every other register number reads as before the write: it names another register. -/
theorem rd_after_write_other {r' : BitVec 8} {u : State} (hreg : decodeReg Config.btq r = some reg) (hne : r' ≠ r)
    (hread : exec (.rd r') s = .next u) :
    ∃ u', exec (.rd r') (s.writeReg v reg) = .next u' ∧ u'.readData = u.readData := by
  obtain ⟨reg', hreg', rfl⟩ := rdIn_next (cfg := Config.btq) hread
  have hother : reg' ≠ reg := by
    rintro rfl
    exact hne ((encodeReg_of_decodeReg hreg').symm.trans (encodeReg_of_decodeReg hreg))
  exact ⟨_, exec_rd_of_register hreg', congrArg some (State.readReg_writeReg_other hother v s)⟩

/-- A length above CMD_MAXLEN is kept, and its entry counts as missing (10_state.md R22). -/
theorem not_present_setLen {n : Fin 8} (hlong : 8 < v.toNat % 16) :
    (s.setLen n (v.setWidth 4)).present Config.btq n = false := by
  have hmaxlen : Config.btq.cmdMaxlen = 8 := rfl
  simp only [State.present, State.lenOf_setLen, if_true, BitVec.toNat_setWidth, hmaxlen, Bool.and_eq_false_iff,
    decide_eq_false_iff_not]
  omega

end WholeEffect

/-- Settles O9: the clauses follow what the decoder finds at the number, and the effect on the registers is that of
`State.writeReg`, observed by RD. -/
theorem wrWholeEffect : Obligations.WrWholeEffect := by
  refine ⟨?unmapped, exec_wr_ctrl, ?busy, ?readOnly, ?register, ?longEntry, ?threshold, ?width⟩
  case unmapped => exact fun r v s h => wrIn_of_unmapped ((decodeReg_btq_eq_none_iff r).mpr h) v s
  case busy =>
    intro r v s h hbusy
    obtain ⟨reg, hreg⟩ := exists_decodeReg_of_mapped h
    exact exec_wr_of_busy hreg hbusy
  case readOnly =>
    intro v s hidle
    exact ⟨exec_wr_of_idle (reg := .status) rfl (by decide) hidle,
      exec_wr_of_idle (reg := .cause) rfl (by decide) hidle⟩
  case register =>
    intro r v s hidle h hctrl hstatus hcause
    obtain ⟨reg, hreg⟩ := exists_decodeReg_of_mapped h
    have hnotCtrl : reg ≠ .ctrl := by
      rintro rfl
      exact hctrl (encodeReg_of_decodeReg hreg).symm
    exact ⟨s.writeReg v reg, exec_wr_of_idle hreg hnotCtrl hidle, s.writeReg_frame v reg,
      rd_after_write_same hreg hctrl hstatus hcause, fun r' u => rd_after_write_other hreg⟩
  case longEntry =>
    intro n v s t hlong hidle hexec
    rw [exec_wr_of_idle (decodeReg_cmdLen n) (by simp) hidle] at hexec
    obtain rfl := Host.Outcome.next.inj hexec
    exact not_present_setLen hlong
  case threshold => exact fun s hidle => exec_wr_of_idle (reg := .threshold) rfl (by decide) hidle
  case width => exact fun s hidle => exec_wr_of_idle (reg := .width) rfl (by decide) hidle

end Sys2Proof.Machine

/-! PROOFS. The family 60_exceptions.md: the refused commands, and which faults a move can raise. -/

namespace Sys2Proof.Machine

section Refusals

variable {cfg : Config} {s : State}

/-! What a command write does when a test of R154, step 4 or 5, applies (60_exceptions.md R166, R169). -/

/-- Neither the mode nor the matrix matters to the configuration test, which comes before the capacity test. -/
theorem encodeIn_of_missing (mode : BitVec 4) (hbusy : s.busy = false) (herr : s.err = false)
    (hmissing : ∃ n : Fin 8, (s.cmdLen.get n).toNat = 0 ∨ cfg.cmdMaxlen < (s.cmdLen.get n).toNat) :
    encodeIn cfg mode s = .next (s.raise .configError) := by
  rw [encodeIn, commandGate_of_idle hbusy herr, acceptChecks_eq, if_pos ⟨rfl, hmissing⟩]

theorem acceptChecks_of_too_large {needsConfig : Bool} (start : State → State)
    (hpresent : needsConfig = true → s.allPresent cfg = true) (hlarge : cfg.maxPixels < s.pixels) :
    acceptChecks cfg needsConfig start s = s.raise .capacityError := by
  obtain ⟨hneeds, habsent, _⟩ | ⟨_, _, hraise⟩ | ⟨_, hfits, _⟩ := acceptChecks_cases cfg needsConfig start s
  · simp [hpresent hneeds] at habsent
  · exact hraise
  · exact absurd hlarge (Nat.not_lt.mpr hfits)

theorem quantizeIn_of_too_large (hbusy : s.busy = false) (herr : s.err = false) (hlarge : cfg.maxPixels < s.pixels) :
    quantizeIn cfg s = .next (s.raise .capacityError) := by
  rw [quantizeIn, commandGate_of_idle hbusy herr, acceptChecks_of_too_large _ (by simp) hlarge]

theorem encodeIn_of_too_large (mode : BitVec 4) (hbusy : s.busy = false) (herr : s.err = false)
    (hpresent : s.allPresent cfg = true) (hlarge : cfg.maxPixels < s.pixels) :
    encodeIn cfg mode s = .next (s.raise .capacityError) := by
  rw [encodeIn, commandGate_of_idle hbusy herr, acceptChecks_of_too_large _ (fun _ => hpresent) hlarge]

end Refusals

theorem dmwIn_of_present {cfg : Config} {a : BitVec 27} (h : a.toNat < cfg.dmWords) (v : Word) (s : State) :
    dmwIn cfg a v s = .next (guardedWrite (fun t => t.writeDm a.toNat v) s) := by
  rw [dmwIn, if_neg (Nat.not_le.mpr h)]

/-- Settles O22: the entry is `State.raise`, and each write named is one that a test of R154 or R157 drops. -/
theorem faultEntryRecordsTheFirstCode : Obligations.FaultEntryRecordsTheFirstCode := by
  refine ⟨fun s c => rfl, rfl, rfl, rfl, rfl, ?wr, ?pixw, ?dmw, ?illegal, ?missing, ?tooLarge⟩
  case wr =>
    intro s r v hbusy hmapped
    obtain ⟨reg, hreg⟩ := exists_decodeReg_of_mapped hmapped
    exact exec_wr_of_busy hreg hbusy
  case pixw =>
    intro s n v hbusy hpresent
    rw [exec_eq_execIn, execIn, pixwIn_of_present hpresent, guardedWrite_of_busy _ hbusy]
  case dmw =>
    intro s a v hbusy hpresent
    rw [exec_eq_execIn, execIn, dmwIn_of_present hpresent, guardedWrite_of_busy _ hbusy]
  case illegal => exact fun s hbusy herr => exec_cmd_of_illegal (by decide) hbusy herr
  case missing =>
    intro s hbusy herr hlf
    exact encodeIn_of_missing 0 hbusy herr ⟨7, .inl (congrArg BitVec.toNat hlf)⟩
  case tooLarge => exact fun cfg s hbusy herr hlarge => quantizeIn_of_too_large hbusy herr hlarge

section Sequencer

variable (cfg : Config) (s : State)

/-! What the sequencer's own transitions touch (40_quantize.md R102, 42_format.md R136): neither ERR nor CAUSE, so no
fault arises inside an accepted operation (60_exceptions.md R173). -/

theorem startQuantize_frame :
    startQuantize s = { s with
      busy := (startQuantize s).busy, done := (startQuantize s).done, phase := (startQuantize s).phase
      i := (startQuantize s).i, acc := (startQuantize s).acc } := by
  by_cases hempty : s.pixels = 0
  · rw [startQuantize_of_empty hempty]
  · rw [startQuantize_of_nonempty hempty]

theorem startEncode_frame (m : BitVec 2) :
    startEncode cfg m s = { s with
      busy := (startEncode cfg m s).busy, done := (startEncode cfg m s).done, phase := (startEncode cfg m s).phase
      modeL := m, fast := decide (s.height.toNat ≤ 8), offset := 0, x := 0, k := 0, j := 0 } := by
  rw [startEncode_eq]
  split <;> rfl

theorem quantizeStep_frame :
    quantizeStep cfg s = { s with
      busy := (quantizeStep cfg s).busy, done := (quantizeStep cfg s).done, phase := (quantizeStep cfg s).phase
      i := (quantizeStep cfg s).i, acc := (quantizeStep cfg s).acc, dm := (quantizeStep cfg s).dm } := by
  unfold quantizeStep quantizeStore
  split_ifs <;> rfl

theorem advance_of_idle {s : State} (h : s.phase = .idle) : advance s = s := by
  simp only [advance, h]

theorem advance_of_qRun {s : State} (h : s.phase = .qRun) : advance s = s := by
  simp only [advance, h]

theorem advance_frame :
    advance s = { s with
      busy := (advance s).busy, done := (advance s).done, phase := (advance s).phase
      offset := (advance s).offset, x := (advance s).x, k := (advance s).k, j := (advance s).j } := by
  cases h : s.phase
  case idle => rw [advance_of_idle h]
  case qRun => rw [advance_of_qRun h]
  case eLs => rw [advance_of_eLs h]; split <;> rfl
  case eLs24 => rw [advance_of_eLs24 h]
  case eSize => rw [advance_of_eSize h]; split_ifs <;> rfl
  case eBop => rw [advance_of_eBop h]; split <;> rfl
  case eWlo => rw [advance_of_eWlo h]
  case eWhi => rw [advance_of_eWhi h]
  case eData =>
    obtain hfast | hbanded := Bool.eq_false_or_eq_true s.fast
    · rw [advance_of_eData_fast h hfast]; split <;> rfl
    · rw [advance_of_eData_banded h hbanded]; split_ifs <;> rfl
  case eLf => rw [advance_of_eLf h]; split_ifs <;> rfl

@[simp] theorem startQuantize_cause : (startQuantize s).cause = s.cause := by rw [startQuantize_frame]

@[simp] theorem startEncode_cause (m : BitVec 2) : (startEncode cfg m s).cause = s.cause := by rw [startEncode_frame]

@[simp] theorem quantizeStep_cause : (quantizeStep cfg s).cause = s.cause := by rw [quantizeStep_frame]

@[simp] theorem advance_cause : (advance s).cause = s.cause := by rw [advance_frame]

end Sequencer

/-- CAUSE is as it was, or the whole effect is the entry of one of `faults` (60_exceptions.md R175). -/
def State.CauseKeptOrRaised (faults : Cause → Prop) (s t : State) : Prop :=
  t.cause = s.cause ∨ ∃ c, faults c ∧ t = s.raise c

/-- The faults a move can raise under the parameters `cfg`: the last needs a matrix above MAX_PIXELS (R169). -/
def State.possibleFault (cfg : Config) (s : State) (c : Cause) : Prop :=
  c = .capacityError → cfg.maxPixels < s.pixels

section CauseKeptOrRaised

variable {cfg : Config} {s t : State} {faults : Cause → Prop}

/-! What each move can do to CAUSE: through the gate, the tests and the guard that raise faults, up to `execIn`. -/

theorem Cause.code_injective : Function.Injective Cause.code := by
  intro c d
  cases c <;> cases d <;> decide

theorem State.possibleFault_of_ne {c : Cause} (h : c ≠ .capacityError) : s.possibleFault cfg c :=
  fun heq => absurd heq h

theorem State.possibleFault_capacityError_iff :
    s.possibleFault cfg .capacityError ↔ cfg.maxPixels < s.pixels := by
  simp [State.possibleFault]

/-- CAUSE holds the code of a fault that cannot be raised only if it held it before. -/
theorem State.CauseKeptOrRaised.cause_eq {c : Cause} (h : s.CauseKeptOrRaised faults t) (hc : ¬ faults c)
    (hcause : t.cause = c.code) : s.cause = c.code := by
  obtain hkept | ⟨d, hd, rfl⟩ := h
  · rw [← hkept, hcause]
  · by_cases hfirst : s.cause = 0
    · rw [State.raise_cause, if_pos hfirst] at hcause
      exact absurd (Cause.code_injective hcause ▸ hd) hc
    · rwa [State.raise_cause, if_neg hfirst] at hcause

theorem commandGate_causeKeptOrRaised {go : State → State} (hbusy : faults .busyAccess)
    (hgo : s.CauseKeptOrRaised faults (go s)) : s.CauseKeptOrRaised faults (commandGate go s) := by
  obtain ⟨_, hraise⟩ | ⟨_, _, hdrop⟩ | ⟨_, _, hopen⟩ := commandGate_cases go s
  · exact .inr ⟨_, hbusy, hraise⟩
  · exact .inl (congrArg State.cause hdrop)
  · rwa [hopen]

theorem acceptChecks_causeKeptOrRaised {needsConfig : Bool} {start : State → State}
    (hconfig : needsConfig = true → faults .configError)
    (hcapacity : cfg.maxPixels < s.pixels → faults .capacityError) (hstart : (start s).cause = s.cause) :
    s.CauseKeptOrRaised faults (acceptChecks cfg needsConfig start s) := by
  obtain ⟨hneeds, _, hraise⟩ | ⟨_, hlarge, hraise⟩ | ⟨_, _, haccept⟩ := acceptChecks_cases cfg needsConfig start s
  · exact .inr ⟨_, hconfig hneeds, hraise⟩
  · exact .inr ⟨_, hcapacity hlarge, hraise⟩
  · exact .inl (haccept ▸ hstart)

theorem guardedWrite_causeKeptOrRaised {store : State → State} (hbusy : faults .busyAccess)
    (hstore : (store s).cause = s.cause) : s.CauseKeptOrRaised faults (guardedWrite store s) := by
  obtain ⟨_, hraise⟩ | ⟨_, hmade⟩ := guardedWrite_cases store s
  · exact .inr ⟨_, hbusy, hraise⟩
  · exact .inl (hmade ▸ hstore)

/-- A register write leaves CAUSE, which is read-only (43_host_access.md R148). -/
@[simp] theorem State.writeReg_cause (s : State) (v : Word) (reg : Reg) : (s.writeReg v reg).cause = s.cause := by
  rw [State.writeReg_frame]

/-- QUANTIZE does not look at the command set (R166). -/
theorem quantizeIn_causeKeptOrRaised (hbusy : faults .busyAccess)
    (hcapacity : cfg.maxPixels < s.pixels → faults .capacityError) (h : quantizeIn cfg s = .next t) :
    s.CauseKeptOrRaised faults t := by
  obtain rfl := Host.Outcome.next.inj h
  exact commandGate_causeKeptOrRaised hbusy
    (acceptChecks_causeKeptOrRaised (by simp) hcapacity (startQuantize_cause s))

theorem encodeIn_causeKeptOrRaised {mode : BitVec 4} (h : encodeIn cfg mode s = .next t) :
    s.CauseKeptOrRaised (s.possibleFault cfg) t := by
  obtain rfl := Host.Outcome.next.inj h
  exact commandGate_causeKeptOrRaised (State.possibleFault_of_ne (by decide))
    (acceptChecks_causeKeptOrRaised (fun _ => State.possibleFault_of_ne (by decide))
      State.possibleFault_capacityError_iff.mpr (startEncode_cause ..))

theorem commandIn_causeKeptOrRaised {c : Byte} (h : commandIn cfg c s = .next t) :
    s.CauseKeptOrRaised (s.possibleFault cfg) t := by
  by_cases hencode : commandOp c = opEncode
  · rw [commandIn_of_encode cfg hencode] at h
    exact encodeIn_causeKeptOrRaised h
  have hbusy : s.possibleFault cfg .busyAccess := State.possibleFault_of_ne (by decide)
  by_cases hquantize : commandOp c = opQuantize ∧ commandMode c = 0
  · obtain ⟨hop, hmode⟩ := hquantize
    rw [commandIn_of_quantize cfg hop hmode] at h
    exact quantizeIn_causeKeptOrRaised hbusy State.possibleFault_capacityError_iff.mpr h
  · obtain rfl := Host.Outcome.next.inj h
    have hillegal : commandIllegal c = true := by
      rw [commandIllegal_iff]
      tauto
    refine commandGate_causeKeptOrRaised hbusy ?_
    rw [decodedCommand, if_pos hillegal]
    exact .inr ⟨_, State.possibleFault_of_ne (by decide), rfl⟩

/-- Every move but RESET leaves CAUSE, or is dropped with a fault that is possible in the state. -/
theorem execIn_causeKeptOrRaised {i : Instr} (hi : i ≠ .reset) (h : execIn cfg i s = .next t) :
    s.CauseKeptOrRaised (s.possibleFault cfg) t := by
  have hbusy : s.possibleFault cfg .busyAccess := State.possibleFault_of_ne (by decide)
  cases i with
  | quantize => exact quantizeIn_causeKeptOrRaised hbusy State.possibleFault_capacityError_iff.mpr h
  | encodeN | encode2W | encode2H | encodeQ | encodeUnknown4to7 | encodeUnknown8to15 =>
    exact encodeIn_causeKeptOrRaised h
  | wr r v =>
    obtain ⟨_, hcommand⟩ | ⟨reg, _, _, rfl⟩ := wrIn_next h
    · exact commandIn_causeKeptOrRaised hcommand
    · exact guardedWrite_causeKeptOrRaised hbusy (s.writeReg_cause v reg)
  | rd r =>
    obtain ⟨reg, _, rfl⟩ := rdIn_next h
    exact .inl rfl
  | pixw n v =>
    obtain ⟨_, rfl⟩ := pixwIn_next h
    exact guardedWrite_causeKeptOrRaised hbusy rfl
  | pixr n =>
    obtain ⟨_, ⟨_, rfl⟩ | ⟨_, rfl⟩⟩ := pixrIn_next h <;> exact .inl rfl
  | dmw a v =>
    obtain ⟨_, rfl⟩ := dmwIn_next h
    exact guardedWrite_causeKeptOrRaised hbusy rfl
  | dmr a =>
    obtain ⟨_, ⟨_, rfl⟩ | ⟨_, rfl⟩⟩ := dmrIn_next h <;> exact .inl rfl
  | cmd c => exact commandIn_causeKeptOrRaised h
  | sinkAccept =>
    obtain ⟨b, _, rfl⟩ := sinkAcceptIn_next h
    exact .inl (advance_cause s)
  | reset => exact absurd rfl hi
  | qstep =>
    obtain ⟨_, _, rfl⟩ := qstepIn_next h
    exact .inl (quantizeStep_cause cfg s)

end CauseKeptOrRaised

/-- Settles O20: every ENCODE meets the configuration test, whatever its mode; of the tests QUANTIZE meets none raises
CONFIG_ERROR. -/
theorem missingEntryRefusesEveryEncode : Obligations.MissingEntryRefusesEveryEncode := by
  refine ⟨?encode, ?quantize⟩
  case encode =>
    intro s hbusy herr hmissing refusedState
    have hrefused (mode : BitVec 4) : encodeIn Config.btq mode s = .next refusedState :=
      encodeIn_of_missing mode hbusy herr hmissing
    exact ⟨fun c hop => (exec_cmd_of_encode hop rfl s).trans (hrefused _), hrefused 0, hrefused 1, hrefused 2,
      hrefused 3, fun low => hrefused _, fun low => hrefused _⟩
  case quantize =>
    intro s t h hcause
    have hother : s.CauseKeptOrRaised (· ≠ .configError) t :=
      quantizeIn_causeKeptOrRaised (by decide) (fun _ => by decide) h
    exact hother.cause_eq (c := .configError) (fun hne => hne rfl) hcause

/-- Settles O21: past the earlier tests the capacity test decides; the dimensions have 16 bits, so at the default
MAX_PIXELS it never applies, and no other test raises CAPACITY_ERROR. -/
theorem capacityErrorNeedsASmallerMemory : Obligations.CapacityErrorNeedsASmallerMemory := by
  refine ⟨?anyParameters, State.pixels_le_default, ?default⟩
  case anyParameters =>
    intro cfg c s hbusy herr hcommand hlarge
    rw [execIn]
    obtain rfl | ⟨hop, hpresent⟩ := hcommand
    · rw [commandIn_of_quantize cfg (by decide) (by decide)]
      exact quantizeIn_of_too_large hbusy herr hlarge
    · rw [commandIn_of_encode cfg hop]
      exact encodeIn_of_too_large _ hbusy herr ((s.allPresent_iff cfg).mpr hpresent) hlarge
  case default =>
    intro i s t h hcause
    by_cases hi : i = .reset
    · subst hi
      obtain rfl := Host.Outcome.next.inj h
      have hzero : (s.afterReset Config.btq).cause = 0 := rfl
      rw [hzero] at hcause
      exact absurd hcause (by decide)
    · have hfits : ¬ s.possibleFault Config.btq .capacityError :=
        mt State.possibleFault_capacityError_iff.mp (Nat.not_lt.mpr s.pixels_le_default)
      rw [exec_eq_execIn] at h
      exact (execIn_causeKeptOrRaised hi h).cause_eq hfits hcause

end Sys2Proof.Machine

/-! PROOFS. The encodings: a carried move and its instruction, a register and its number, and the step that decodes. -/

namespace Sys2Proof

section Operands

variable {indexBits valueBits : Nat} {m : Move} {i j : Instr}

/-! The widths of R71: an operand that its form does not have is one of no bits, and so 0. -/

theorem ne_zero_iff_of_no_bits (v : BitVec 32) : v ≠ 0 ↔ 2 ^ 0 ≤ v.toNat := by
  bv_omega

theorem checkOperands_eq_ok_iff :
    checkOperands indexBits valueBits m i = .ok j ↔
      i = j ∧ m.index.toNat < 2 ^ indexBits ∧ m.value.toNat < 2 ^ valueBits := by
  have hstray : (indexBits = 0 ∧ m.index ≠ 0) ∨ (valueBits = 0 ∧ m.value ≠ 0) →
      ¬ (m.index.toNat < 2 ^ indexBits ∧ m.value.toNat < 2 ^ valueBits) := by
    rintro (⟨rfl, hindex⟩ | ⟨rfl, hvalue⟩) ⟨hi, hv⟩
    · exact absurd ((ne_zero_iff_of_no_bits _).mp hindex) (Nat.not_le.mpr hi)
    · exact absurd ((ne_zero_iff_of_no_bits _).mp hvalue) (Nat.not_le.mpr hv)
  unfold checkOperands
  split_ifs with hs hw
  · simpa using fun _ hi => not_lt.mp fun hv => hstray hs ⟨hi, hv⟩
  · rw [← not_lt, ← not_lt, ← not_and_or] at hw
    simpa using fun _ hi => not_lt.mp fun hv => hw ⟨hi, hv⟩
  · rw [not_or, not_le, not_le] at hw
    simp [hw]

/-- A number that fits `n` bits is carried by a word without loss. -/
theorem setWidth_setWidth_of_fits {n : Nat} {v : BitVec 32} (h : v.toNat < 2 ^ n) : (v.setWidth n).setWidth 32 = v := by
  apply BitVec.eq_of_toNat_eq
  rw [BitVec.toNat_setWidth, BitVec.toNat_setWidth, Nat.mod_eq_of_lt h, Nat.mod_eq_of_lt v.isLt]

theorem setWidth_setWidth_of_le {n : Nat} (hn : n ≤ 32) (v : BitVec n) : (v.setWidth 32).setWidth n = v := by
  rw [BitVec.setWidth_setWidth_of_le _ hn, BitVec.setWidth_eq]

theorem zero_fits : (0 : BitVec 32).toNat < 2 ^ 0 := by decide

theorem eq_zero_of_fits {v : BitVec 32} (h : v.toNat < 2 ^ 0) : v = 0 := by bv_omega

theorem toNat_setWidth_lt {n : Nat} (v : BitVec n) : (v.setWidth 32).toNat < 2 ^ n := by
  rw [BitVec.toNat_setWidth]
  exact (Nat.mod_le _ _).trans_lt v.isLt

end Operands

section CommandWords

variable {c : Byte} {i : Instr}

/-! A command word is its two fields (30_encoding.md R66 to R70). -/

theorem toNat_append_eq {n k : Nat} (high : BitVec n) (low : BitVec k) :
    (high ++ low).toNat = high.toNat * 2 ^ k + low.toNat := by
  rw [BitVec.toNat_append, ← Nat.shiftLeft_add_eq_or_of_lt low.isLt, Nat.shiftLeft_eq]

theorem commandWord_fields (c : Byte) : commandWord (commandOp c) (commandMode c) = c := by
  apply BitVec.eq_of_toNat_eq
  rw [commandWord, toNat_append_eq, Machine.commandOp_toNat, Machine.commandMode_toNat]
  omega

theorem lowBits_toNat (c : Byte) (n : Nat) : (c.extractLsb' 0 n).toNat = c.toNat % 2 ^ n := by
  rw [BitVec.extractLsb'_toNat, Nat.shiftRight_zero]

/-- Of a mode of 4 to 7 its row leaves the two low bits open, and the others are fixed (R68). -/
theorem mode4to7_eq (hlow : 4 ≤ (commandMode c).toNat) (hhigh : (commandMode c).toNat < 8) :
    0b01#2 ++ c.extractLsb' 0 2 = commandMode c := by
  have hfixed : (0b01#2).toNat = 1 := rfl
  apply BitVec.eq_of_toNat_eq
  rw [Machine.commandMode_toNat] at hlow hhigh ⊢
  rw [toNat_append_eq, lowBits_toNat, hfixed]
  omega

theorem mode8to15_eq (hlow : 8 ≤ (commandMode c).toNat) : 0b1#1 ++ c.extractLsb' 0 3 = commandMode c := by
  have hfixed : (0b1#1).toNat = 1 := rfl
  apply BitVec.eq_of_toNat_eq
  rw [Machine.commandMode_toNat] at hlow ⊢
  rw [toNat_append_eq, lowBits_toNat, hfixed]
  omega

/-- No bit of a legal command word is dropped: OP and MODE are all of it, and each row fixes or keeps both. -/
theorem encode_of_decodeCommand (h : decodeCommand c = .ok i) : encode i = wordMove c := by
  have hword {op mode : BitVec 4} (hop : commandOp c = op) (hmode : commandMode c = mode) :
      wordMove (commandWord op mode) = wordMove c := by
    rw [← hop, ← hmode, commandWord_fields]
  unfold decodeCommand at h
  split_ifs at h with hquantize hop h0 h1 h2 h3 h8 <;> cases h
  · exact hword hquantize.1 hquantize.2
  · exact hword hop h0
  · exact hword hop h1
  · exact hword hop h2
  · exact hword hop h3
  · exact hword hop (mode4to7_eq (by bv_omega) h8).symm
  · exact hword hop (mode8to15_eq (Nat.not_lt.mp h8)).symm

theorem decodeCommand_encode4to7 : ∀ low : BitVec 2,
    decodeCommand (commandWord opEncode (0b01#2 ++ low)) = .ok (.encodeUnknown4to7 low) := by
  decide

theorem decodeCommand_encode8to15 : ∀ low : BitVec 3,
    decodeCommand (commandWord opEncode (0b1#1 ++ low)) = .ok (.encodeUnknown8to15 low) := by
  decide

end CommandWords

section Moves

variable {m : Move} {i : Instr}

/-! Both directions of O3, form by form of R71. -/

theorem decode_wordMove (c : Byte) : decode (wordMove c) = decodeCommand c := by
  have hfits : checkOperands 0 8 (wordMove c) .quantize = .ok .quantize :=
    checkOperands_eq_ok_iff.mpr ⟨rfl, zero_fits, toNat_setWidth_lt c⟩
  simp only [decode, wordMove] at hfits ⊢
  rw [hfits, setWidth_setWidth_of_le (by decide)]
  rfl

theorem decode_encode (i : Instr) : decode (encode i) = .ok i := by
  cases i with
  | quantize | encodeN | encode2W | encode2H | encodeQ => exact (decode_wordMove _).trans (by decide)
  | encodeUnknown4to7 low => exact (decode_wordMove _).trans (decodeCommand_encode4to7 low)
  | encodeUnknown8to15 low => exact (decode_wordMove _).trans (decodeCommand_encode8to15 low)
  | wr r v =>
    exact checkOperands_eq_ok_iff.mpr
      ⟨congrArg (Instr.wr · v) (setWidth_setWidth_of_le (by decide) r), toNat_setWidth_lt r, v.isLt⟩
  | rd r =>
    exact checkOperands_eq_ok_iff.mpr
      ⟨congrArg Instr.rd (setWidth_setWidth_of_le (by decide) r), toNat_setWidth_lt r, zero_fits⟩
  | pixw n v => exact checkOperands_eq_ok_iff.mpr ⟨rfl, n.isLt, v.isLt⟩
  | pixr n => exact checkOperands_eq_ok_iff.mpr ⟨rfl, n.isLt, zero_fits⟩
  | dmw a v =>
    exact checkOperands_eq_ok_iff.mpr
      ⟨congrArg (Instr.dmw · v) (setWidth_setWidth_of_le (by decide) a), toNat_setWidth_lt a, v.isLt⟩
  | dmr a =>
    exact checkOperands_eq_ok_iff.mpr
      ⟨congrArg Instr.dmr (setWidth_setWidth_of_le (by decide) a), toNat_setWidth_lt a, zero_fits⟩
  | cmd c =>
    exact checkOperands_eq_ok_iff.mpr
      ⟨congrArg Instr.cmd (setWidth_setWidth_of_le (by decide) c), zero_fits, toNat_setWidth_lt c⟩
  | sinkAccept | reset | qstep => rfl

/-- A bare command word that decodes stands alone in its triple. -/
theorem wordMove_of_decode (hop : m.op = .word) (h : decode m = .ok i) :
    ∃ c, m = wordMove c ∧ decodeCommand c = .ok i := by
  obtain ⟨op, index, value⟩ := m
  obtain rfl := hop
  simp only [decode] at h
  cases hcheck : checkOperands 0 8 ⟨.word, index, value⟩ .quantize with
  | error why => rw [hcheck] at h; cases h
  | ok j =>
    obtain ⟨_, hindex, hvalue⟩ := checkOperands_eq_ok_iff.mp hcheck
    rw [hcheck] at h
    refine ⟨value.setWidth 8, ?_, h⟩
    rw [wordMove, setWidth_setWidth_of_fits hvalue]
    congr 1
    bv_omega

theorem encode_of_decode (h : decode m = .ok i) : encode i = m := by
  obtain ⟨op, index, value⟩ := m
  cases op with
  | word =>
    obtain ⟨c, hword, hc⟩ := wordMove_of_decode rfl h
    rw [hword]
    exact encode_of_decodeCommand hc
  | wr | dmw =>
    obtain ⟨rfl, hindex, _⟩ := checkOperands_eq_ok_iff.mp h
    rw [encode, setWidth_setWidth_of_fits hindex]
  | rd | dmr =>
    obtain ⟨rfl, hindex, hvalue⟩ := checkOperands_eq_ok_iff.mp h
    rw [encode, setWidth_setWidth_of_fits hindex, eq_zero_of_fits (v := value) hvalue]
  | pixw =>
    obtain ⟨rfl, _, _⟩ := checkOperands_eq_ok_iff.mp h
    rfl
  | pixr =>
    obtain ⟨rfl, _, hvalue⟩ := checkOperands_eq_ok_iff.mp h
    rw [encode, eq_zero_of_fits (v := value) hvalue]
  | cmd =>
    obtain ⟨rfl, hindex, hvalue⟩ := checkOperands_eq_ok_iff.mp h
    rw [encode, setWidth_setWidth_of_fits hvalue, eq_zero_of_fits (v := index) hindex]
  | sinkAccept | reset | qstep =>
    obtain ⟨rfl, hindex, hvalue⟩ := checkOperands_eq_ok_iff.mp h
    rw [encode, eq_zero_of_fits (v := index) hindex, eq_zero_of_fits (v := value) hvalue]

end Moves

/-- Settles O3: a form's operands fit their widths exactly when the triple is that of an instruction. -/
theorem decodeAndEncodeAgree : Obligations.DecodeAndEncodeAgree := ⟨decode_encode, fun _ _ => encode_of_decode⟩

theorem decodeReg_cmdByte : ∀ (n : Fin 8) (j : Fin 16), j.val < 8 →
    decodeReg Config.btq (encodeReg (.cmdByte n j)) = some (.cmdByte n j) := by
  decide

/-- Settles O7: the number of a register that exists names it, and a number is read back from the register it names. -/
theorem registerNumbersAgree : Obligations.RegisterNumbersAgree := by
  refine ⟨fun reg hexists => ?_, fun r reg => encodeReg_of_decodeReg⟩
  cases reg with
  | ctrl | status | cause | width | height | threshold => decide
  | cmdLen n => exact decodeReg_cmdLen n
  | cmdByte n j => exact decodeReg_cmdByte n j (hexists n j rfl)

/-- Settles O4: each word is decoded as it stands. -/
theorem writtenOutWordsDecode : Obligations.WrittenOutWordsDecode := by
  unfold Obligations.WrittenOutWordsDecode
  decide

end Sys2Proof

namespace Sys2Proof.Machine

/-- A command word and its row meet the same tests of R154 and start the same operation. -/
theorem exec_eq_exec_cmd_of_decodeCommand {c : Byte} {i : Instr} (h : decodeCommand c = .ok i) (s : State) :
    exec i s = exec (.cmd c) s := by
  unfold decodeCommand at h
  split_ifs at h with hquantize hop h0 h1 h2 h3 h8 <;> cases h
  · exact (exec_cmd_of_quantize hquantize.1 hquantize.2 s).symm
  · exact (exec_cmd_of_encode hop h0 s).symm
  · exact (exec_cmd_of_encode hop h1 s).symm
  · exact (exec_cmd_of_encode hop h2 s).symm
  · exact (exec_cmd_of_encode hop h3 s).symm
  · exact (exec_encodeUnknown4to7 _ s).trans (exec_cmd_of_encode_unknown hop (by bv_omega) s).symm
  · exact (exec_encodeUnknown8to15 _ s).trans (exec_cmd_of_encode_unknown hop (by omega) s).symm

/-- Settles O6: the decoder of command words tells the rows apart as the command write does, by OP and MODE. -/
theorem commandRowsAreCommandWrites : Obligations.CommandRowsAreCommandWrites :=
  ⟨fun _ _ s h => exec_eq_exec_cmd_of_decodeCommand h s, exec_wr_ctrl⟩

section Performing

variable {m : Move} {s : State}

/-! A carried move is made as what it decodes to (43_host_access.md R147; logs 2 to 4). -/

theorem performMove_of_ok {i : Instr} (h : decode m = .ok i) (s : State) : performMove m s = exec i s := by
  rw [performMove, h]

theorem performMove_of_illegal {c : Byte} (h : decode m = .error (.illegalCommandWord c)) (s : State) :
    performMove m s = exec (.cmd c) s := by
  rw [performMove, h]

theorem performMove_of_malformed {why : Reject} (h : decode m = .error why)
    (hwhy : ∀ c, why ≠ .illegalCommandWord c) (s : State) : performMove m s = .refused (.malformedMove why) := by
  cases why with
  | illegalCommandWord c => exact absurd rfl (hwhy c)
  | operandTooWide | strayOperand => rw [performMove, h]

theorem stepAlone_of_qRun (h : s.phase = .qRun) : stepAlone s = exec .qstep s := by
  rw [stepAlone, h]

theorem stepAlone_of_not_qRun (h : s.phase ≠ .qRun) : stepAlone s = .next s := by
  unfold stepAlone
  split
  · next hrun => exact absurd hrun h
  · rfl

end Performing

/-- Settles O1: the clauses are those of the agenda, of the decoder's answer and, with no move to make, of the phase. -/
theorem stepRunsTheDecodedMove : Obligations.StepRunsTheDecodedMove := by
  refine fun s => ⟨?decoded, ?illegal, ?malformed, ?alone, ?waiting⟩
  case decoded => exact fun m rest i hagenda h => (step_move s m rest hagenda).trans (performMove_of_ok h _)
  case illegal => exact fun m rest c hagenda h => (step_move s m rest hagenda).trans (performMove_of_illegal h _)
  case malformed =>
    exact fun m rest why hagenda h hwhy => (step_move s m rest hagenda).trans (performMove_of_malformed h hwhy _)
  case alone => exact fun hagenda hrun => (step_alone s hagenda).trans (stepAlone_of_qRun hrun)
  case waiting => exact fun hagenda hrun => (step_alone s hagenda).trans (stepAlone_of_not_qRun hrun)

theorem State.pushMove_withAgenda (s : State) (m : Move) : (s.pushMove m).withAgenda s.agenda = s := rfl

/-- Settles O2: taking the placed move off the agenda gives back the state it was placed in. -/
theorem placedTableWordRunsNext : Obligations.PlacedTableWordRunsNext := by
  intro s nbits w i htable
  have hdecode : decode (tableMove nbits w) = .ok i := by
    unfold decodeTableWord at htable
    cases hword : decode (tableMove nbits w) with
    | error why => rw [hword] at htable; cases htable
    | ok j => rw [hword] at htable; rw [Option.some.inj htable]
  rw [step_move (s.withFetchWord nbits w) (tableMove nbits w) s.agenda rfl, performMove_of_ok hdecode]
  exact congrArg (exec i) (s.pushMove_withAgenda (tableMove nbits w))

end Sys2Proof.Machine

/-! PROOFS. The host's reads and writes of registers and memories, the commands that are dropped, and the moves that are
not enabled. -/

namespace Sys2Proof.Machine

section Reads

variable {cfg : Config} {s : State}

/-! What a read answers (43_host_access.md R149, R151, R153). -/

theorem exec_rd_of_value {r : BitVec 8} {reg : Reg} {v : Word} (hreg : decodeReg Config.btq r = some reg)
    (hvalue : s.readReg reg = v) : exec (.rd r) s = .next { s with readData := some v } := by
  rw [exec_rd_of_register hreg, hvalue, State.returns]

/-- STATUS as a number: each flag has one bit of it (10_state.md R19). -/
theorem State.status_setWidth (s : State) :
    s.status.setWidth 32 = BitVec.ofNat 32 (s.busy.toNat + 2 * s.done.toNat + 4 * s.err.toNat) := by
  have hbits : ∀ busy done err : Bool,
      ((BitVec.ofBool busy).setWidth 8 ||| ((BitVec.ofBool done).setWidth 8 <<< 1)
          ||| ((BitVec.ofBool err).setWidth 8 <<< 2)).setWidth 32
        = BitVec.ofNat 32 (busy.toNat + 2 * done.toNat + 4 * err.toNat) := by
    decide
  exact hbits s.busy s.done s.err

theorem setWidth_eq_ofNat_toNat {n : Nat} (v : BitVec n) : v.setWidth 32 = BitVec.ofNat 32 v.toNat :=
  (BitVec.ofNat_toNat 32 v).symm

theorem pixrIn_of_absent {i : BitVec 32} (h : cfg.maxPixels ≤ i.toNat) (s : State) :
    pixrIn cfg i s = .refused (.pixIndexOutOfRange i) := by
  rw [pixrIn, if_pos h]

theorem pixrIn_of_present {i : BitVec 32} (h : i.toNat < cfg.maxPixels) (s : State) :
    pixrIn cfg i s = .next (if s.busy then s.busyRead else s.returns (s.readPix i.toNat)) := by
  rw [pixrIn, if_neg (Nat.not_le.mpr h), ← apply_ite]

theorem dmrIn_of_absent {a : BitVec 27} (h : cfg.dmWords ≤ a.toNat) (s : State) :
    dmrIn cfg a s = .refused (.dmIndexOutOfRange a) := by
  rw [dmrIn, if_pos h]

theorem dmrIn_of_present {a : BitVec 27} (h : a.toNat < cfg.dmWords) (s : State) :
    dmrIn cfg a s = .next (if s.busy then s.busyRead else s.returns (s.readDm a.toNat)) := by
  rw [dmrIn, if_neg (Nat.not_le.mpr h), ← apply_ite]

theorem dmwIn_of_absent {a : BitVec 27} (h : cfg.dmWords ≤ a.toNat) (v : Word) (s : State) :
    dmwIn cfg a v s = .refused (.dmIndexOutOfRange a) := by
  rw [dmwIn, if_pos h]

end Reads

/-- Settles O10: each number names its register, whose value fits the word that RD returns. -/
theorem rdReturnsTheRegister : Obligations.RdReturnsTheRegister := by
  refine fun s => ⟨?ctrl, ?status, ?cause, ?width, ?height, ?threshold, fun n => ?cmdLen, fun n j hj => ?cmdByte⟩
  case ctrl => exact exec_rd_of_value (reg := .ctrl) rfl rfl
  case status => exact exec_rd_of_value (reg := .status) rfl s.status_setWidth
  case cause => exact exec_rd_of_value (reg := .cause) rfl (setWidth_eq_ofNat_toNat _)
  case width => exact exec_rd_of_value (reg := .width) rfl (setWidth_eq_ofNat_toNat _)
  case height => exact exec_rd_of_value (reg := .height) rfl (setWidth_eq_ofNat_toNat _)
  case threshold => exact exec_rd_of_value (reg := .threshold) rfl (setWidth_eq_ofNat_toNat _)
  case cmdLen => exact exec_rd_of_value (decodeReg_cmdLen n) (setWidth_eq_ofNat_toNat _)
  case cmdByte => exact exec_rd_of_value (decodeReg_cmdByte n j hj) (setWidth_eq_ofNat_toNat _)

/-- Settles O12: the range decides whether PIXR is a move, and BUSY what it returns. -/
theorem pixrReturnsTheSample : Obligations.PixrReturnsTheSample := by
  refine fun i s => ⟨fun habsent => ?outOfRange, fun hpresent hidle => ?idle, fun hpresent hbusy => ?busy⟩
  case outOfRange => exact pixrIn_of_absent (cfg := Config.btq) habsent s
  case idle =>
    rw [exec_eq_execIn, execIn, pixrIn_of_present hpresent, if_neg (ne_true_of_eq_false hidle), State.returns]
  case busy =>
    refine ⟨Config.busyReadValue s.draws, ?_⟩
    rw [exec_eq_execIn, execIn, pixrIn_of_present hpresent, if_pos hbusy]
    rfl

/-- Settles O14: the range decides whether DMR is a move, and BUSY what it returns. -/
theorem dmrReturnsTheWord : Obligations.DmrReturnsTheWord := by
  refine fun a s => ⟨fun habsent => ?outOfRange, fun hpresent hidle => ?idle, fun hpresent hbusy => ?busy⟩
  case outOfRange => exact dmrIn_of_absent (cfg := Config.btq) habsent s
  case idle =>
    rw [exec_eq_execIn, execIn, dmrIn_of_present hpresent, if_neg (ne_true_of_eq_false hidle), State.returns]
  case busy =>
    refine ⟨Config.busyReadValue s.draws, ?_⟩
    rw [exec_eq_execIn, execIn, dmrIn_of_present hpresent, if_pos hbusy]
    rfl

/-- Settles O13: the range decides whether DMW is a move, BUSY whether the write is made, and a write of DM reads back
as `State.readDm_writeDm` says. -/
theorem dmwStoresOneWord : Obligations.DmwStoresOneWord := by
  refine fun a v s => ⟨fun habsent => ?outOfRange, fun hpresent hbusy => ?busy, fun hpresent hidle => ?idle⟩
  case outOfRange => exact dmwIn_of_absent (cfg := Config.btq) habsent v s
  case busy =>
    rw [exec_eq_execIn, execIn, dmwIn_of_present hpresent, guardedWrite_of_busy _ hbusy]
    rfl
  case idle =>
    refine ⟨s.writeDm a.toNat v, ?_, rfl, s.readDm_writeDm a.toNat v⟩
    rw [exec_eq_execIn, execIn, dmwIn_of_present hpresent, guardedWrite_of_idle _ hidle]

section Gate

variable {cfg : Config} {s : State}

/-! A command write that does not pass the first two tests of R154. -/

theorem commandGate_of_busy (go : State → State) (hbusy : s.busy = true) :
    commandGate go s = s.raise .busyAccess := by
  rw [commandGate, if_pos hbusy]

theorem commandGate_of_faulted (go : State → State) (hidle : s.busy = false) (herr : s.err = true) :
    commandGate go s = s := by
  simp [commandGate, hidle, herr]

end Gate

/-- Settles O23: a command meets the gate, every other write the guard, and both drop it while BUSY = 1; a read answers
with `State.busyRead` or `State.returns`. -/
theorem busyBlockDropsEveryWrite : Obligations.BusyBlockDropsEveryWrite := by
  intro s hbusy dropped
  have hcommand (go : State → State) : (.next (commandGate go s) : Result) = .next dropped :=
    congrArg Host.Outcome.next (commandGate_of_busy go hbusy)
  have hguard (store : State → State) : (.next (guardedWrite store s) : Result) = .next dropped :=
    congrArg Host.Outcome.next (guardedWrite_of_busy store hbusy)
  refine ⟨?wr, ?pixw, ?dmw, fun c => hcommand _, hcommand _, hcommand _, hcommand _, hcommand _, hcommand _,
    fun low => hcommand _, fun low => hcommand _, ?reads⟩
  case wr =>
    intro r v hmapped
    obtain ⟨reg, hreg⟩ := exists_decodeReg_of_mapped hmapped
    exact exec_wr_of_busy hreg hbusy
  case pixw => exact fun i v hpresent => (pixwIn_of_present hpresent v s).trans (hguard _)
  case dmw => exact fun a v hpresent => (dmwIn_of_present hpresent v s).trans (hguard _)
  case reads =>
    rintro i t (⟨r, rfl⟩ | ⟨n, rfl⟩ | ⟨a, rfl⟩) h
    · obtain ⟨reg, _, rfl⟩ := rdIn_next h
      rfl
    · obtain ⟨_, ⟨_, rfl⟩ | ⟨_, rfl⟩⟩ := pixrIn_next h <;> rfl
    · obtain ⟨_, ⟨_, rfl⟩ | ⟨_, rfl⟩⟩ := dmrIn_next h <;> rfl

/-- Settles O24: every command, row or word, meets the gate, which drops it while ERR = 1. -/
theorem faultedBlockDropsCommands : Obligations.FaultedBlockDropsCommands := by
  intro s hidle herr
  have hdrop (go : State → State) : (.next (commandGate go s) : Result) = .next s :=
    congrArg Host.Outcome.next (commandGate_of_faulted go hidle herr)
  exact ⟨fun c => hdrop _, hdrop _, hdrop _, hdrop _, hdrop _, hdrop _, fun low => hdrop _, fun low => hdrop _⟩

section Stops

variable {cfg : Config} {s : State} {n : Fin 8}

/-! Where the two moves of the sequencer stop (logs 15 and 16). -/

theorem offered_of_idle (h : s.phase = .idle) : offered cfg s = .refused .nothingOffered := by
  simp only [offered, h]

theorem offered_of_qRun (h : s.phase = .qRun) : offered cfg s = .refused .nothingOffered := by
  simp only [offered, h]

theorem exec_sinkAccept_of_refused {why : Refusal} (h : offered Config.btq s = .refused why) :
    exec .sinkAccept s = .refused why := by
  rw [exec_eq_execIn, execIn, sinkAcceptIn, h]

theorem exec_sinkAccept_of_fault {f : Fault} (h : offered Config.btq s = .fault f) :
    exec .sinkAccept s = .fault f := by
  rw [exec_eq_execIn, execIn, sinkAcceptIn, h]

/-- In a phase that emits an entry the block offers a byte of that entry or none. -/
theorem offered_eq_offerStored (hentry : s.emittedEntry = some n) : offered cfg s = offerStored cfg s n := by
  unfold State.emittedEntry at hentry
  unfold offered
  split at hentry <;> simp_all

theorem exec_sinkAccept_of_byte_absent (hentry : s.emittedEntry = some n) (hj : 8 ≤ s.j.toNat) :
    exec .sinkAccept s = .fault (.cmdByteAbsent n s.j) := by
  have hnot : ¬ s.j.toNat < Config.btq.cmdMaxlen := Nat.not_lt.mpr hj
  refine exec_sinkAccept_of_fault ?_
  rw [offered_eq_offerStored hentry, offerStored, if_neg hnot]

theorem exec_sinkAccept_of_column_absent (hphase : s.phase = .eData) (hx : s.width.toNat ≤ s.x.toNat) :
    exec .sinkAccept s = .fault (.colByteUndefined s.x) := by
  refine exec_sinkAccept_of_fault ?_
  have hnot : ¬ (s.x.toNat < s.width.toNat ∧ s.pixels ≤ Config.btq.maxPixels) := fun h => absurd h.1 (Nat.not_lt.mpr hx)
  simp only [offered, hphase]
  rw [offerData, if_neg hnot]

theorem qstepIn_of_not_qRun (h : s.phase ≠ .qRun) : qstepIn cfg s = .refused .notQuantizing := by
  rw [qstepIn, if_pos h]

theorem qstepIn_of_pixel_absent (hphase : s.phase = .qRun) (hi : cfg.maxPixels ≤ s.i.toNat) :
    qstepIn cfg s = .fault (.pixelAbsent s.i) := by
  rw [qstepIn, if_neg (not_not_intro hphase), if_pos hi]

theorem qstepIn_of_pixel_present (hphase : s.phase = .qRun) (hi : s.i.toNat < cfg.maxPixels) :
    qstepIn cfg s = .next (quantizeStep cfg s) := by
  rw [qstepIn, if_neg (not_not_intro hphase), if_neg (Nat.not_le.mpr hi)]

end Stops

/-- Settles O48: what is offered decides SINK.ACCEPT, the phase and the range of I decide QSTEP. -/
theorem movesThatCannotHappenStop : Obligations.MovesThatCannotHappenStop := by
  intro s size
  refine ⟨?nothingOffered, ?notQuantizing, fun hj => ⟨?eLs, ?eSize, ?fastBop, ?bandedBop, ?eLf⟩,
    ?column, ?pixel⟩
  case nothingOffered =>
    rintro (hidle | hrun)
    · exact exec_sinkAccept_of_refused (offered_of_idle hidle)
    · exact exec_sinkAccept_of_refused (offered_of_qRun hrun)
  case notQuantizing => exact qstepIn_of_not_qRun
  case eLs => exact fun hphase => exec_sinkAccept_of_byte_absent (emittedEntry_of_eLs hphase) hj
  case eSize =>
    intro hphase
    have hsize : sizeEntry s.modeL = size := sizeEntry_eq s.modeL
    exact exec_sinkAccept_of_byte_absent (hsize ▸ emittedEntry_of_eSize hphase) hj
  case fastBop =>
    intro hphase hfast
    have hentry := emittedEntry_of_eBop hphase
    rw [hfast] at hentry
    exact exec_sinkAccept_of_byte_absent hentry hj
  case bandedBop =>
    intro hphase hbanded
    have hentry := emittedEntry_of_eBop hphase
    rw [hbanded] at hentry
    exact exec_sinkAccept_of_byte_absent hentry hj
  case eLf => exact fun hphase => exec_sinkAccept_of_byte_absent (emittedEntry_of_eLf hphase) hj
  case column => exact exec_sinkAccept_of_column_absent
  case pixel => exact qstepIn_of_pixel_absent (cfg := Config.btq)

end Sys2Proof.Machine

/-! PROOFS. What a move can do, once for all moves: `Effect`, and who writes what, by its cases. -/

namespace Sys2Proof.Machine

/-- The move is a read of the host (43_host_access.md R149, R151, R153). -/
def hostRead (i : Instr) : Prop := (∃ r, i = .rd r) ∨ (∃ n, i = .pixr n) ∨ ∃ a, i = .dmr a

/-- What a move other than RESET does in the state `s` when it answers (43_host_access.md R148 to R155, R160), with what
the tests on the way to it have found. -/
inductive Effect (cfg : Config) (s : State) : Instr → State → Prop where
  | raised {i : Instr} (c : Cause) (hwrite : hostWrite i = true) : Effect cfg s i (s.raise c)
  | dropped {i : Instr} (hcommand : commandWrite i = true) : Effect cfg s i s
  | quantizeStarted {i : Instr} (hcommand : commandWrite i = true) (hidle : s.busy = false) (herr : s.err = false)
      (hfits : s.pixels ≤ cfg.maxPixels) : Effect cfg s i (startQuantize s)
  | encodeStarted {i : Instr} (m : BitVec 2) (hcommand : commandWrite i = true) (hidle : s.busy = false)
      (herr : s.err = false) (hpresent : s.allPresent cfg = true) (hfits : s.pixels ≤ cfg.maxPixels) :
      Effect cfg s i (startEncode cfg m s)
  | registerWritten (r : BitVec 8) (v : Word) (reg : Reg) (hidle : s.busy = false) :
      Effect cfg s (.wr r v) (s.writeReg v reg)
  | sampleWritten (n : BitVec 32) (v : Word) (hidle : s.busy = false) (hpresent : n.toNat < cfg.maxPixels) :
      Effect cfg s (.pixw n v) (s.writePix n.toNat v)
  | wordWritten (a : BitVec 27) (v : Word) (hidle : s.busy = false) (hpresent : a.toNat < cfg.dmWords) :
      Effect cfg s (.dmw a v) (s.writeDm a.toNat v)
  | answered {i : Instr} (v : Word) (draws : Nat) (hread : hostRead i) :
      Effect cfg s i { s with readData := some v, draws := draws }
  | accepted (b : Byte) (hoffered : offered cfg s = .next b) : Effect cfg s .sinkAccept ((advance s).emit b)
  | stepped (hphase : s.phase = .qRun) (hpresent : s.i.toNat < cfg.maxPixels) :
      Effect cfg s .qstep (quantizeStep cfg s)

section Inversion

variable {cfg : Config} {s t : State} {i : Instr}

/-! Every answer of `execIn` is one of these effects. -/

theorem hostWrite_of_commandWrite (h : commandWrite i = true) : hostWrite i = true := by
  cases i with
  | rd | pixw | pixr | dmw | dmr | sinkAccept | reset | qstep => cases h
  | _ => rfl

theorem commandGate_effect {go : State → State} (hcommand : commandWrite i = true)
    (hgo : s.busy = false → s.err = false → Effect cfg s i (go s)) : Effect cfg s i (commandGate go s) := by
  obtain ⟨_, hraise⟩ | ⟨_, _, hdrop⟩ | ⟨hidle, herr, hopen⟩ := commandGate_cases go s
  · rw [hraise]; exact .raised _ (hostWrite_of_commandWrite hcommand)
  · rw [hdrop]; exact .dropped hcommand
  · rw [hopen]; exact hgo hidle herr

theorem acceptChecks_effect {needsConfig : Bool} {start : State → State} (hcommand : commandWrite i = true)
    (hstart : (needsConfig = true → s.allPresent cfg = true) → s.pixels ≤ cfg.maxPixels → Effect cfg s i (start s)) :
    Effect cfg s i (acceptChecks cfg needsConfig start s) := by
  obtain ⟨_, _, hraise⟩ | ⟨_, _, hraise⟩ | ⟨hpresent, hfits, haccept⟩ := acceptChecks_cases cfg needsConfig start s
  · rw [hraise]; exact .raised _ (hostWrite_of_commandWrite hcommand)
  · rw [hraise]; exact .raised _ (hostWrite_of_commandWrite hcommand)
  · rw [haccept]; exact hstart hpresent hfits

theorem quantizeIn_effect (hcommand : commandWrite i = true) (h : quantizeIn cfg s = .next t) : Effect cfg s i t := by
  obtain rfl := Host.Outcome.next.inj h
  exact commandGate_effect hcommand fun hidle herr =>
    acceptChecks_effect hcommand fun _ hfits => .quantizeStarted hcommand hidle herr hfits

theorem encodeIn_effect {mode : BitVec 4} (hcommand : commandWrite i = true) (h : encodeIn cfg mode s = .next t) :
    Effect cfg s i t := by
  obtain rfl := Host.Outcome.next.inj h
  exact commandGate_effect hcommand fun hidle herr =>
    acceptChecks_effect hcommand fun hpresent hfits =>
      .encodeStarted _ hcommand hidle herr (hpresent rfl) hfits

/-- A command write is an illegal word, QUANTIZE, or ENCODE. -/
theorem commandIn_effect {c : Byte} (hcommand : commandWrite i = true) (h : commandIn cfg c s = .next t) :
    Effect cfg s i t := by
  by_cases hencode : commandOp c = opEncode
  · rw [commandIn_of_encode cfg hencode] at h
    exact encodeIn_effect hcommand h
  by_cases hquantize : commandOp c = opQuantize ∧ commandMode c = 0
  · rw [commandIn_of_quantize cfg hquantize.1 hquantize.2] at h
    exact quantizeIn_effect hcommand h
  · have hillegal : commandIllegal c = true := by
      rw [commandIllegal_iff]
      tauto
    obtain rfl := Host.Outcome.next.inj h
    refine commandGate_effect hcommand fun _ _ => ?_
    rw [decodedCommand, if_pos hillegal]
    exact .raised _ (hostWrite_of_commandWrite hcommand)

theorem guardedWrite_effect {store : State → State} (hwrite : hostWrite i = true)
    (hstore : s.busy = false → Effect cfg s i (store s)) : Effect cfg s i (guardedWrite store s) := by
  obtain ⟨_, hraise⟩ | ⟨hidle, hmade⟩ := guardedWrite_cases store s
  · rw [hraise]; exact .raised _ hwrite
  · rw [hmade]; exact hstore hidle

/-- WR to CTRL is the command write among the writes of a register: CTRL has the number 0x00. -/
theorem commandWrite_wr_of_ctrl {r : BitVec 8} (h : decodeReg cfg r = some .ctrl) (v : Word) :
    commandWrite (.wr r v) = true :=
  decide_eq_true (encodeReg_of_decodeReg h).symm

theorem execIn_effect (hi : i ≠ .reset) (h : execIn cfg i s = .next t) : Effect cfg s i t := by
  cases i with
  | quantize => exact quantizeIn_effect rfl h
  | encodeN | encode2W | encode2H | encodeQ | encodeUnknown4to7 | encodeUnknown8to15 => exact encodeIn_effect rfl h
  | wr r v =>
    obtain ⟨hctrl, hcommand⟩ | ⟨reg, _, _, rfl⟩ := wrIn_next h
    · exact commandIn_effect (commandWrite_wr_of_ctrl hctrl v) hcommand
    · exact guardedWrite_effect rfl fun hidle => .registerWritten r v reg hidle
  | rd r =>
    obtain ⟨reg, _, rfl⟩ := rdIn_next h
    exact .answered _ _ (.inl ⟨r, rfl⟩)
  | pixw n v =>
    obtain ⟨hpresent, rfl⟩ := pixwIn_next h
    exact guardedWrite_effect rfl fun hidle => .sampleWritten n v hidle hpresent
  | pixr n =>
    obtain ⟨_, ⟨_, rfl⟩ | ⟨_, rfl⟩⟩ := pixrIn_next h <;> exact .answered _ _ (.inr (.inl ⟨n, rfl⟩))
  | dmw a v =>
    obtain ⟨hpresent, rfl⟩ := dmwIn_next h
    exact guardedWrite_effect rfl fun hidle => .wordWritten a v hidle hpresent
  | dmr a =>
    obtain ⟨_, ⟨_, rfl⟩ | ⟨_, rfl⟩⟩ := dmrIn_next h <;> exact .answered _ _ (.inr (.inr ⟨a, rfl⟩))
  | cmd c => exact commandIn_effect rfl h
  | sinkAccept =>
    obtain ⟨b, hoffered, rfl⟩ := sinkAcceptIn_next h
    exact .accepted b hoffered
  | reset => exact absurd rfl hi
  | qstep =>
    obtain ⟨hphase, hpresent, rfl⟩ := qstepIn_next h
    exact .stepped hphase hpresent

theorem exec_effect (hi : i ≠ .reset) (h : exec i s = .next t) : Effect Config.btq s i t :=
  execIn_effect hi (exec_eq_execIn i s ▸ h)

end Inversion

section Fields

variable (cfg : Config) (s : State)

/-! The fields that each kind of effect leaves, read off its frame. -/

@[simp] theorem startQuantize_err : (startQuantize s).err = s.err := by rw [startQuantize_frame]
@[simp] theorem startEncode_err (m : BitVec 2) : (startEncode cfg m s).err = s.err := by rw [startEncode_frame]
@[simp] theorem quantizeStep_err : (quantizeStep cfg s).err = s.err := by rw [quantizeStep_frame]
@[simp] theorem advance_err : (advance s).err = s.err := by rw [advance_frame]
@[simp] theorem State.writeReg_err (v : Word) (reg : Reg) : (s.writeReg v reg).err = s.err := by
  rw [State.writeReg_frame]

@[simp] theorem startQuantize_out : (startQuantize s).out = s.out := by rw [startQuantize_frame]
@[simp] theorem startEncode_out (m : BitVec 2) : (startEncode cfg m s).out = s.out := by rw [startEncode_frame]
@[simp] theorem quantizeStep_out : (quantizeStep cfg s).out = s.out := by rw [quantizeStep_frame]
@[simp] theorem advance_out : (advance s).out = s.out := by rw [advance_frame]
@[simp] theorem State.writeReg_out (v : Word) (reg : Reg) : (s.writeReg v reg).out = s.out := by
  rw [State.writeReg_frame]

@[simp] theorem State.writeReg_busy (v : Word) (reg : Reg) : (s.writeReg v reg).busy = s.busy := by
  rw [State.writeReg_frame]
@[simp] theorem State.writeReg_done (v : Word) (reg : Reg) : (s.writeReg v reg).done = s.done := by
  rw [State.writeReg_frame]
@[simp] theorem State.writeReg_phase (v : Word) (reg : Reg) : (s.writeReg v reg).phase = s.phase := by
  rw [State.writeReg_frame]

end Fields

section Out

variable {cfg : Config} {s t : State} {i : Instr}

theorem Effect.out_eq (h : Effect cfg s i t) (hi : i ≠ .sinkAccept) : t.out = s.out := by
  cases h with
  | raised | dropped | sampleWritten | wordWritten | answered => rfl
  | quantizeStarted => exact startQuantize_out s
  | encodeStarted m => exact startEncode_out cfg s m
  | registerWritten r v reg => exact s.writeReg_out v reg
  | accepted => exact absurd rfl hi
  | stepped => exact quantizeStep_out cfg s

end Out

/-- Settles O26: of all effects only an accepted byte and RESET touch OUT. -/
theorem outGrowsOnlyWhenTheSinkAccepts : Obligations.OutGrowsOnlyWhenTheSinkAccepts := by
  refine fun i s t h => ⟨?accepted, ?reset, fun haccept hreset => ?other⟩
  case accepted =>
    rintro rfl
    obtain ⟨b, hoffered, rfl⟩ := sinkAcceptIn_next (cfg := Config.btq) h
    refine ⟨b, hoffered, ?_⟩
    rw [State.emit_out, advance_out]
  case reset =>
    rintro rfl
    obtain rfl := Host.Outcome.next.inj h
    rfl
  case other => exact (exec_effect hreset h).out_eq haccept

/-- Settles O25: only a fault entry touches ERR and CAUSE, and in a faulted idle block no operation starts or is in
progress. -/
theorem faultSticksUntilReset : Obligations.FaultSticksUntilReset := by
  intro i s t hi h
  cases exec_effect hi h with
  | raised c hwrite => exact ⟨fun _ => rfl, fun hcause => if_neg hcause, fun _ hidle => ⟨hidle, rfl⟩⟩
  | dropped | sampleWritten | wordWritten | answered => exact ⟨id, fun _ => rfl, fun _ hidle => ⟨hidle, rfl⟩⟩
  | quantizeStarted _ _ herr _ =>
    exact ⟨(startQuantize_err s).trans, fun _ => startQuantize_cause s, fun hfault => by simp [herr] at hfault⟩
  | encodeStarted m _ _ herr _ _ =>
    exact ⟨(startEncode_err _ s m).trans, fun _ => startEncode_cause _ s m, fun hfault => by simp [herr] at hfault⟩
  | registerWritten r v reg =>
    exact ⟨(s.writeReg_err v reg).trans, fun _ => s.writeReg_cause v reg,
      fun _ hidle => ⟨(s.writeReg_phase v reg).trans hidle, s.writeReg_out v reg⟩⟩
  | accepted b hoffered =>
    exact ⟨(advance_err s).trans, fun _ => advance_cause s,
      fun _ hidle => absurd hoffered (not_offered_of_idle hidle b)⟩
  | stepped hrun =>
    exact ⟨(quantizeStep_err _ s).trans, fun _ => quantizeStep_cause _ s, fun _ hidle => by simp [hrun] at hidle⟩

/-- Settles O28: what is offered reads neither the fault, nor the value returned, and the other moves are not made while
an ENCODE runs. -/
theorem offeredByteIsHeld : Obligations.OfferedByteIsHeld := by
  intro i s t hbusy hemitting haccept hreset h
  have hnotIdle (hidle : s.busy = false) : False := by simp [hidle] at hbusy
  cases exec_effect hreset h with
  | raised | dropped | answered => exact ⟨rfl, rfl⟩
  | quantizeStarted _ hidle | encodeStarted _ _ hidle | registerWritten _ _ _ hidle | sampleWritten _ _ hidle
  | wordWritten _ _ hidle => exact (hnotIdle hidle).elim
  | accepted => exact absurd rfl haccept
  | stepped hrun => rw [hrun] at hemitting; cases hemitting

/-- Besides the flags, CAUSE, the sequencer and OUT, which are the block's own, nothing differs: neither what the host
writes, nor the memories, nor the model's own fields. -/
def State.HostPartKept (s t : State) : Prop :=
  t = { s with
    busy := t.busy, done := t.done, err := t.err, cause := t.cause, phase := t.phase, i := t.i, acc := t.acc
    offset := t.offset, x := t.x, k := t.k, j := t.j, modeL := t.modeL, fast := t.fast, out := t.out }

section HostPart

variable {cfg : Config} {s : State}

theorem startQuantize_hostPartKept : s.HostPartKept (startQuantize s) := by
  rw [startQuantize_frame]; rfl

theorem startEncode_hostPartKept (m : BitVec 2) : s.HostPartKept (startEncode cfg m s) := by
  rw [startEncode_frame]; rfl

theorem advance_emit_hostPartKept (b : Byte) : s.HostPartKept ((advance s).emit b) := by
  rw [advance_frame]; rfl

/-- The clauses of O27, met by every move that leaves the part of the host alone. -/
theorem State.HostPartKept.fields {t : State} (h : s.HostPartKept t) :
    (t.width = s.width ∧ t.height = s.height ∧ t.threshold = s.threshold ∧ t.cmdLen = s.cmdLen
        ∧ t.cmdByte = s.cmdByte)
      ∧ t.pix = s.pix ∧ t.dm = s.dm ∧ t.readData = s.readData ∧ t.agenda = s.agenda ∧ t.epoch = s.epoch := by
  rw [h]
  exact ⟨⟨rfl, rfl, rfl, rfl, rfl⟩, rfl, rfl, rfl, rfl, rfl⟩

/-- Apart from the moves that O27 names, an effect leaves the part of the host alone. -/
theorem Effect.hostPartKept_or {t : State} {i : Instr} (h : Effect cfg s i t) :
    s.HostPartKept t ∨ (∃ r v reg, i = .wr r v ∧ t = s.writeReg v reg)
      ∨ (∃ n v, i = .pixw n v ∧ t = s.writePix n.toNat v)
      ∨ (∃ a v, i = .dmw a v ∧ t = s.writeDm a.toNat v)
      ∨ (∃ v draws, hostRead i ∧ t = { s with readData := some v, draws := draws })
      ∨ (i = .qstep ∧ t = quantizeStep cfg s) := by
  cases h with
  | raised | dropped => exact .inl rfl
  | quantizeStarted => exact .inl startQuantize_hostPartKept
  | encodeStarted m => exact .inl (startEncode_hostPartKept m)
  | accepted b => exact .inl (advance_emit_hostPartKept b)
  | registerWritten r v reg => exact .inr (.inl ⟨r, v, reg, rfl, rfl⟩)
  | sampleWritten n v => exact .inr (.inr (.inl ⟨n, v, rfl, rfl⟩))
  | wordWritten a v => exact .inr (.inr (.inr (.inl ⟨a, v, rfl, rfl⟩)))
  | answered v draws hread => exact .inr (.inr (.inr (.inr (.inl ⟨v, draws, hread, rfl⟩))))
  | stepped => exact .inr (.inr (.inr (.inr (.inr ⟨rfl, rfl⟩))))

end HostPart

/-- Settles O27: the named moves are those whose effect is not confined to the block's own part. -/
theorem onlyTheNamedMovesWrite : Obligations.OnlyTheNamedMovesWrite := by
  intro i s t hi h
  obtain hkept | ⟨r, v, reg, rfl, rfl⟩ | ⟨n, v, rfl, rfl⟩ | ⟨a, v, rfl, rfl⟩ | ⟨v, draws, hread, rfl⟩ | ⟨rfl, rfl⟩ :=
    (exec_effect hi h).hostPartKept_or
  · obtain ⟨hregisters, hpix, hdm, hreadData, hagenda, hepoch⟩ := hkept.fields
    exact ⟨fun _ => hregisters, fun _ => hpix, fun _ _ => hdm, fun _ _ _ => hreadData, hagenda, hepoch⟩
  · rw [State.writeReg_frame]
    exact ⟨fun hwr => absurd rfl (hwr r v), fun _ => rfl, fun _ _ => rfl, fun _ _ _ => rfl, rfl, rfl⟩
  · exact ⟨fun _ => ⟨rfl, rfl, rfl, rfl, rfl⟩, fun hpixw => absurd rfl (hpixw n v), fun _ _ => rfl, fun _ _ _ => rfl,
      rfl, rfl⟩
  · exact ⟨fun _ => ⟨rfl, rfl, rfl, rfl, rfl⟩, fun _ => rfl, fun hdmw => absurd rfl (hdmw a v), fun _ _ _ => rfl,
      rfl, rfl⟩
  · refine ⟨fun _ => ⟨rfl, rfl, rfl, rfl, rfl⟩, fun _ => rfl, fun _ _ => rfl, fun hrd hpixr hdmr => ?_, rfl, rfl⟩
    obtain ⟨r, rfl⟩ | ⟨n, rfl⟩ | ⟨a, rfl⟩ := hread
    · exact absurd rfl (hrd r)
    · exact absurd rfl (hpixr n)
    · exact absurd rfl (hdmr a)
  · rw [quantizeStep_frame]
    exact ⟨fun _ => ⟨rfl, rfl, rfl, rfl, rfl⟩, fun _ => rfl, fun _ hqstep => absurd rfl hqstep, fun _ _ _ => rfl,
      rfl, rfl⟩

section Flags

variable {cfg : Config} {s t : State} {i : Instr}

/-! The flags (10_state.md R37): an operation in progress leaves them or completes. -/

theorem advance_flags (s : State) :
    ((advance s).busy = s.busy ∧ (advance s).done = s.done)
      ∨ ((advance s).busy = false ∧ (advance s).done = true ∧ (advance s).phase = .idle) := by
  cases h : s.phase
  case idle => rw [advance_of_idle h]; exact .inl ⟨rfl, rfl⟩
  case qRun => rw [advance_of_qRun h]; exact .inl ⟨rfl, rfl⟩
  case eLs => rw [advance_of_eLs h]; split <;> exact .inl ⟨rfl, rfl⟩
  case eLs24 => rw [advance_of_eLs24 h]; exact .inl ⟨rfl, rfl⟩
  case eSize =>
    rw [advance_of_eSize h]
    split_ifs
    · exact .inr ⟨rfl, rfl, rfl⟩
    · exact .inl ⟨rfl, rfl⟩
    · exact .inl ⟨rfl, rfl⟩
  case eBop => rw [advance_of_eBop h]; split <;> exact .inl ⟨rfl, rfl⟩
  case eWlo => rw [advance_of_eWlo h]; exact .inl ⟨rfl, rfl⟩
  case eWhi => rw [advance_of_eWhi h]; exact .inl ⟨rfl, rfl⟩
  case eData =>
    obtain hfast | hbanded := Bool.eq_false_or_eq_true s.fast
    · rw [advance_of_eData_fast h hfast]
      split
      · exact .inr ⟨rfl, rfl, rfl⟩
      · exact .inl ⟨rfl, rfl⟩
    · rw [advance_of_eData_banded h hbanded]; split_ifs <;> exact .inl ⟨rfl, rfl⟩
  case eLf =>
    rw [advance_of_eLf h]
    split_ifs
    · exact .inl ⟨rfl, rfl⟩
    · exact .inr ⟨rfl, rfl, rfl⟩
    · exact .inl ⟨rfl, rfl⟩

/-- R102's store of the word or of ACC touches neither the flags nor the phase. -/
theorem quantizeStore_frame (cfg : Config) (s : State) :
    ∃ dm acc, quantizeStore cfg s = { s with dm := dm, acc := acc } := by
  unfold quantizeStore
  split <;> exact ⟨_, _, rfl⟩

theorem quantizeStep_of_last (cfg : Config) (h : s.i.toNat + 1 = s.pixels) :
    quantizeStep cfg s = (quantizeStore cfg s).finish := by
  simp [quantizeStep, lastPixel, h]

theorem quantizeStep_of_not_last (cfg : Config) (h : s.i.toNat + 1 ≠ s.pixels) :
    quantizeStep cfg s = { quantizeStore cfg s with i := s.i + 1 } := by
  simp [quantizeStep, lastPixel, h]

theorem quantizeStep_flags (cfg : Config) (s : State) :
    ((quantizeStep cfg s).busy = s.busy ∧ (quantizeStep cfg s).done = s.done)
      ∨ ((quantizeStep cfg s).busy = false ∧ (quantizeStep cfg s).done = true
        ∧ (quantizeStep cfg s).phase = .idle) := by
  by_cases hlast : s.i.toNat + 1 = s.pixels
  · rw [quantizeStep_of_last cfg hlast]
    exact .inr ⟨rfl, rfl, rfl⟩
  · obtain ⟨dm, acc, hstore⟩ := quantizeStore_frame cfg s
    rw [quantizeStep_of_not_last cfg hlast, hstore]
    exact .inl ⟨rfl, rfl⟩

/-- What happens to the flags and CAUSE: nothing, a fault entry, the acceptance of a command, or a completion. -/
inductive FlagChange (i : Instr) (s t : State) : Prop where
  | kept (hbusy : t.busy = s.busy) (hdone : t.done = s.done) (herr : t.err = s.err) (hcause : t.cause = s.cause)
  | raised (c : Cause) (hwrite : hostWrite i = true) (heq : t = s.raise c)
  | begun (hcommand : commandWrite i = true) (hidle : s.busy = false) (hnofault : s.err = false)
      (herr : t.err = s.err) (hcause : t.cause = s.cause) (hbusy : t.busy = true) (hdone : t.done = false)
      (hphase : t.phase = .qRun ∨ t.phase = .eLs)
  | completed (hmove : i = .sinkAccept ∨ i = .qstep) (herr : t.err = s.err) (hcause : t.cause = s.cause)
      (hbusy : t.busy = false) (hdone : t.done = true) (hphase : t.phase = .idle)
  | completedAtOnce (hcommand : commandWrite i = true) (hidle : s.busy = false) (herr : t.err = s.err)
      (hcause : t.cause = s.cause) (hbusy : t.busy = false) (hdone : t.done = true)

theorem Effect.flagChange (h : Effect Config.btq s i t) : FlagChange i s t := by
  cases h with
  | raised c hwrite => exact .raised c hwrite rfl
  | dropped | sampleWritten | wordWritten | answered => exact .kept rfl rfl rfl rfl
  | registerWritten r v reg =>
    exact .kept (s.writeReg_busy v reg) (s.writeReg_done v reg) (s.writeReg_err v reg) (s.writeReg_cause v reg)
  | quantizeStarted hcommand hidle herr _ =>
    by_cases hempty : s.pixels = 0
    · rw [startQuantize_of_empty hempty]
      exact .completedAtOnce hcommand hidle rfl rfl hidle rfl
    · rw [startQuantize_of_nonempty hempty]
      exact .begun hcommand hidle herr rfl rfl rfl rfl (.inl rfl)
  | encodeStarted m hcommand hidle herr _ _ =>
    rw [startEncode_btq]
    exact .begun hcommand hidle herr rfl rfl rfl rfl (.inr rfl)
  | accepted b _ =>
    obtain ⟨hbusy, hdone⟩ | ⟨hbusy, hdone, hphase⟩ := advance_flags s
    · exact .kept hbusy hdone (advance_err s) (advance_cause s)
    · exact .completed (.inl rfl) (advance_err s) (advance_cause s) hbusy hdone hphase
  | stepped =>
    obtain ⟨hbusy, hdone⟩ | ⟨hbusy, hdone, hphase⟩ := quantizeStep_flags Config.btq s
    · exact .kept hbusy hdone (quantizeStep_err _ s) (quantizeStep_cause _ s)
    · exact .completed (.inr rfl) (quantizeStep_err _ s) (quantizeStep_cause _ s) hbusy hdone hphase

theorem Cause.one_le_code (c : Cause) : 1 ≤ c.code.toNat := by cases c <;> decide

end Flags

/-- Settles O47: each kind of change of the flags meets every clause. -/
theorem onlyTheNamedMovesChangeTheFlags : Obligations.OnlyTheNamedMovesChangeTheFlags := by
  intro i s t hi h
  cases (exec_effect hi h).flagChange with
  | kept hbusy hdone herr hcause => simp_all
  | raised c hwrite heq =>
    subst heq
    by_cases hfirst : s.cause = 0
    · simp_all [c.one_le_code, c.code_le]
    · simp_all
  | begun hcommand hidle hnofault herr hcause hbusy hdone hphase => simp_all
  | completed hmove herr hcause hbusy hdone hphase =>
    have hnamed : i = .sinkAccept ∨ i = .qstep ∨ commandWrite i = true := hmove.imp_right .inl
    simp_all
  | completedAtOnce hcommand hidle herr hcause hbusy hdone => simp_all

end Sys2Proof.Machine

/-! PROOFS. The invariant of 10_state.md R40: what it says in each phase, and that every step keeps it. -/

namespace Sys2Proof.Machine

/-- What no phase has a part in: ERR and CAUSE agree, CAUSE is a code, and the memories are in canonical form. -/
structure State.FaultsAndMemoriesOk (cfg : Config) (s : State) : Prop where
  errIffCause : s.errIffCause
  causeLegal : s.causeLegal
  memoriesWf : s.memoriesWf cfg

/-- QUANTIZE is in progress (R40 d): pixel I exists, and ACC holds the dots of the pixels before it in its word. -/
structure State.Quantizing (cfg : Config) (s : State) : Prop where
  busy : s.busy = true
  done : s.done = false
  fits : s.pixels ≤ cfg.maxPixels
  pixel : s.i.toNat < s.pixels
  acc : s.acc.toNat < 2 ^ (s.i.toNat % 32)

/-- The registers while a band is emitted (R40 e, h): there is a matrix, and OFFSET is the first row of a band in it. -/
structure BandAt (width height : BitVec 16) (offset : BitVec 17) (fast : Bool) : Prop where
  columns : 1 ≤ width.toNat
  rows : 1 ≤ height.toNat
  band : offset.toNat % 24 = 0
  row : offset.toNat < height.toNat
  path : fast = true → offset = 0

/-- A band is being emitted. -/
abbrev State.InBand (s : State) : Prop := BandAt s.width s.height s.offset s.fast

/-- Where in the stream the block is, phase by phase (R40 e, f). -/
def State.Position (s : State) : Prop :=
  match s.phase with
  | .idle | .qRun => False
  | .eLs => s.offset = 0 ∧ s.j.toNat < (s.lenOf entryLsSet).toNat
  | .eLs24 => s.offset = 0 ∧ s.j = 0
  | .eSize => s.offset = 0 ∧ s.j.toNat < (s.lenOf (sizeEntry s.modeL)).toNat
  | .eBop => s.InBand ∧ s.j.toNat < (s.lenOf (bandEntry s.fast)).toNat
  | .eWlo | .eWhi => s.InBand
  | .eData => s.InBand ∧ s.x.toNat < s.width.toNat ∧ s.k.toNat ≤ 2 ∧ (s.fast = true → s.k = 0)
  | .eLf => s.InBand ∧ s.fast = false ∧ s.j.toNat < (s.lenOf entryCtlLf).toNat

/-- ENCODE is in progress (R40 e to h). -/
structure State.Encoding (cfg : Config) (s : State) : Prop where
  busy : s.busy = true
  done : s.done = false
  fits : s.pixels ≤ cfg.maxPixels
  present : s.allPresent cfg = true
  fast : s.fast = decide (s.height.toNat ≤ 8)
  position : s.Position

section Reading

variable {cfg : Config} {s : State}

/-! The invariant, read off the phase. -/

theorem not_position_of_idle (h : s.phase = .idle) : ¬ s.Position := by simp [State.Position, h]

theorem not_position_of_qRun (h : s.phase = .qRun) : ¬ s.Position := by simp [State.Position, h]

theorem position_of_eLs (h : s.phase = .eLs) :
    s.Position ↔ s.offset = 0 ∧ s.j.toNat < (s.lenOf entryLsSet).toNat := by
  simp only [State.Position, h]

theorem position_of_eLs24 (h : s.phase = .eLs24) : s.Position ↔ s.offset = 0 ∧ s.j = 0 := by
  simp only [State.Position, h]

theorem position_of_eSize (h : s.phase = .eSize) :
    s.Position ↔ s.offset = 0 ∧ s.j.toNat < (s.lenOf (sizeEntry s.modeL)).toNat := by
  simp only [State.Position, h]

theorem position_of_eBop (h : s.phase = .eBop) :
    s.Position ↔ s.InBand ∧ s.j.toNat < (s.lenOf (bandEntry s.fast)).toNat := by
  simp only [State.Position, h]

theorem position_of_eWlo (h : s.phase = .eWlo) : s.Position ↔ s.InBand := by
  simp only [State.Position, h]

theorem position_of_eWhi (h : s.phase = .eWhi) : s.Position ↔ s.InBand := by
  simp only [State.Position, h]

theorem position_of_eData (h : s.phase = .eData) :
    s.Position ↔ s.InBand ∧ s.x.toNat < s.width.toNat ∧ s.k.toNat ≤ 2 ∧ (s.fast = true → s.k = 0) := by
  simp only [State.Position, h]

theorem position_of_eLf (h : s.phase = .eLf) :
    s.Position ↔ s.InBand ∧ s.fast = false ∧ s.j.toNat < (s.lenOf entryCtlLf).toNat := by
  simp only [State.Position, h]

theorem State.Position.inBand (h : s.Position) (hband : s.phase.inBand = true) : s.InBand := by
  cases hphase : s.phase with
  | idle | qRun | eLs | eLs24 | eSize => simp [hphase, Phase.inBand] at hband
  | eBop => exact ((position_of_eBop hphase).mp h).1
  | eWlo => exact (position_of_eWlo hphase).mp h
  | eWhi => exact (position_of_eWhi hphase).mp h
  | eData => exact ((position_of_eData hphase).mp h).1
  | eLf => exact ((position_of_eLf hphase).mp h).1

theorem State.Position.opening (h : s.Position) (hphase : s.phase = .eLs ∨ s.phase = .eLs24 ∨ s.phase = .eSize) :
    s.offset = 0 := by
  obtain hphase | hphase | hphase := hphase
  · exact ((position_of_eLs hphase).mp h).1
  · exact ((position_of_eLs24 hphase).mp h).1
  · exact ((position_of_eSize hphase).mp h).1

/-- J is the index of a byte of the string being emitted (R40 f). -/
theorem State.Position.string (h : s.Position) {n : Fin 8} (hentry : s.emittedEntry = some n) :
    s.j.toNat < (s.lenOf n).toNat := by
  cases hphase : s.phase with
  | idle | qRun | eLs24 | eWlo | eWhi | eData => simp [State.emittedEntry, hphase] at hentry
  | eLs =>
    obtain rfl := Option.some.inj ((emittedEntry_of_eLs hphase).symm.trans hentry)
    exact ((position_of_eLs hphase).mp h).2
  | eSize =>
    obtain rfl := Option.some.inj ((emittedEntry_of_eSize hphase).symm.trans hentry)
    exact ((position_of_eSize hphase).mp h).2
  | eBop =>
    obtain rfl := Option.some.inj ((emittedEntry_of_eBop hphase).symm.trans hentry)
    exact ((position_of_eBop hphase).mp h).2
  | eLf =>
    obtain rfl := Option.some.inj ((emittedEntry_of_eLf hphase).symm.trans hentry)
    exact ((position_of_eLf hphase).mp h).2.2

theorem inv_iff_of_idle (hphase : s.phase = .idle) :
    s.Inv cfg ↔ s.busy = false ∧ s.FaultsAndMemoriesOk cfg := by
  constructor
  · rintro ⟨⟨hbusy, herr, -⟩, -, hmemories, hcause⟩
    exact ⟨by simpa [State.busyIffActive, hphase] using hbusy, herr, hcause, hmemories⟩
  · rintro ⟨hbusy, herr, hcause, hmemories⟩
    refine ⟨⟨?_, herr, ?_⟩, ?_, hmemories, hcause⟩
    · simp [State.busyIffActive, hphase, hbusy]
    · simp [State.notBusyAndDone, State.quantizeBounds, State.dataBounds, State.stringBounds, State.emittingHasConfig,
        State.bandHasMatrix, State.emittedEntry, Phase.emitting, Phase.inBand, hphase, hbusy]
    · simp [State.sequenced, Phase.emitting, Phase.inBand, hphase]

theorem inv_iff_of_qRun (hphase : s.phase = .qRun) :
    s.Inv cfg ↔ s.Quantizing cfg ∧ s.FaultsAndMemoriesOk cfg := by
  constructor
  · rintro ⟨⟨hbusy, herr, hdone, hbounds, -⟩, ⟨-, -, -, -, -, hfits⟩, hmemories, hcause⟩
    have hactive : s.phase ≠ .idle := by simp [hphase]
    obtain ⟨hpixel, hacc⟩ := hbounds hphase
    have hdone' : s.done = false := Bool.eq_false_of_not_eq_true fun h => hdone ⟨hbusy.mpr hactive, h⟩
    exact ⟨⟨hbusy.mpr hactive, hdone', hfits hactive, hpixel, hacc⟩, herr, hcause, hmemories⟩
  · rintro ⟨⟨hbusy, hdone, hfits, hpixel, hacc⟩, herr, hcause, hmemories⟩
    refine ⟨⟨?_, herr, ?_⟩, ?_, hmemories, hcause⟩
    · simp [State.busyIffActive, hphase, hbusy]
    · simp [State.notBusyAndDone, State.quantizeBounds, State.dataBounds, State.stringBounds, State.emittingHasConfig,
        State.bandHasMatrix, State.emittedEntry, Phase.emitting, Phase.inBand, hphase, hdone, hpixel, hacc]
    · simp [State.sequenced, Phase.emitting, Phase.inBand, hphase, hfits]

theorem inv_iff_of_emitting (hphase : s.phase.emitting = true) :
    s.Inv cfg ↔ s.Encoding cfg ∧ s.FaultsAndMemoriesOk cfg := by
  have hactive : s.phase ≠ .idle := fun hidle => by simp [hidle, Phase.emitting] at hphase
  have hnotRun : s.phase ≠ .qRun := fun hrun => by simp [hrun, Phase.emitting] at hphase
  constructor
  · rintro ⟨⟨hbusy, herr, hdone, -, hdata, hstring, hpresent, hmatrix⟩, ⟨hband, hfast, hopening, hliteral, hlf, hfits⟩,
      hmemories, hcause⟩
    have hinBand (h : s.phase.inBand = true) : s.InBand :=
      ⟨(hmatrix h).1, (hmatrix h).2, (hband h).1, (hband h).2.1, (hband h).2.2⟩
    have hdone' : s.done = false := Bool.eq_false_of_not_eq_true fun h => hdone ⟨hbusy.mpr hactive, h⟩
    refine ⟨⟨hbusy.mpr hactive, hdone', hfits hactive, hpresent hphase, hfast hphase, ?_⟩, herr, hcause, hmemories⟩
    unfold State.Position
    cases h : s.phase with
    | idle => exact hactive h
    | qRun => exact hnotRun h
    | eLs => exact ⟨hopening (.inl h), hstring _ (emittedEntry_of_eLs h)⟩
    | eLs24 => exact ⟨hopening (.inr (.inl h)), hliteral h⟩
    | eSize => exact ⟨hopening (.inr (.inr h)), hstring _ (emittedEntry_of_eSize h)⟩
    | eBop => exact ⟨hinBand (h ▸ rfl), hstring _ (emittedEntry_of_eBop h)⟩
    | eWlo | eWhi => exact hinBand (h ▸ rfl)
    | eData =>
      obtain ⟨hx, hk, hpath, -⟩ := hdata h
      exact ⟨hinBand (h ▸ rfl), hx, hk, fun hf => (hpath hf).1⟩
    | eLf => exact ⟨hinBand (h ▸ rfl), hlf h, hstring _ (emittedEntry_of_eLf h)⟩
  · rintro ⟨⟨hbusy, hdone, hfits, hpresent, hfast, hposition⟩, herr, hcause, hmemories⟩
    have hband := hposition.inBand
    have hdata (h : s.phase = .eData) := (position_of_eData h).mp hposition
    have hliteral (h : s.phase = .eLs24) : s.j = 0 := ((position_of_eLs24 h).mp hposition).2
    have hlf (h : s.phase = .eLf) : s.fast = false := ((position_of_eLf h).mp hposition).2.1
    exact ⟨⟨iff_of_true hbusy hactive, herr, fun h => by simp [hdone] at h, fun h => absurd h hnotRun,
      fun h =>
        have ⟨hinBand, hx, hk, hpath⟩ := hdata h
        ⟨hx, hk, fun hf => ⟨hpath hf, hinBand.path hf⟩, hinBand.band, hinBand.row⟩,
      fun n => hposition.string, fun _ => hpresent, fun h => ⟨(hband h).columns, (hband h).rows⟩⟩,
      ⟨fun h => ⟨(hband h).band, (hband h).row, (hband h).path⟩, fun _ => hfast, hposition.opening, hliteral, hlf,
        fun _ => hfits⟩, hmemories, hcause⟩

end Reading

section Fields

variable {cfg : Config} {s : State}

/-! What of the invariant does not read the fields that a move changes. -/

theorem State.FaultsAndMemoriesOk.congr {t : State} (h : s.FaultsAndMemoriesOk cfg) (herr : t.err = s.err)
    (hcause : t.cause = s.cause) (hpix : t.pix = s.pix) (hdm : t.dm = s.dm) : t.FaultsAndMemoriesOk cfg := by
  obtain ⟨herrIff, hlegal, hmemories⟩ := h
  constructor
  · rwa [State.errIffCause, herr, hcause]
  · rwa [State.causeLegal, hcause]
  · rwa [State.memoriesWf, hpix, hdm]

theorem State.Inv.faultsAndMemoriesOk (h : s.Inv cfg) : s.FaultsAndMemoriesOk cfg := by
  obtain ⟨⟨_, herr, _⟩, _, hmemories, hcause⟩ := h
  exact ⟨herr, hcause, hmemories⟩

theorem State.Inv.idle_of_not_busy (h : s.Inv cfg) (hidle : s.busy = false) : s.phase = .idle := by
  obtain ⟨⟨hbusy, _⟩, _⟩ := h
  by_contra hactive
  simp [hbusy.mpr hactive] at hidle

/-- A move of the host in an idle block leaves it idle. -/
theorem inv_of_idle {t : State} (hidle : t.busy = false) (hphase : t.phase = .idle) (hok : t.FaultsAndMemoriesOk cfg) :
    t.Inv cfg :=
  (inv_iff_of_idle hphase).mpr ⟨hidle, hok⟩

end Fields

section HostMoves

variable {cfg : Config} {s : State}

/-! The moves of the host. -/

theorem inv_raise (h : s.Inv cfg) (c : Cause) : (s.raise c).Inv cfg := by
  obtain ⟨⟨hbusy, _, hrest⟩, hsequenced, hmemories, hlegal⟩ := h
  refine ⟨⟨hbusy, ?_, hrest⟩, hsequenced, hmemories, ?_⟩
  · exact iff_of_true rfl (s.raise_cause_ne_zero c)
  · rw [State.causeLegal, State.raise_cause]
    split
    · exact c.code_le
    · exact hlegal

theorem inv_answered (h : s.Inv cfg) (v : Word) (draws : Nat) : { s with readData := some v, draws := draws }.Inv cfg :=
  h

theorem inv_withAgenda (h : s.Inv cfg) (rest : List Move) : (s.withAgenda rest).Inv cfg := h

theorem inv_writeReg (h : s.Inv cfg) (hidle : s.busy = false) (v : Word) (reg : Reg) : (s.writeReg v reg).Inv cfg := by
  have hphase := h.idle_of_not_busy hidle
  rw [State.writeReg_frame]
  exact inv_of_idle hidle hphase (h.faultsAndMemoriesOk.congr rfl rfl rfl rfl)

theorem inv_writePix (h : s.Inv cfg) (hidle : s.busy = false) {n : Nat} (hn : n < cfg.maxPixels) (v : Word) :
    (s.writePix n v).Inv cfg := by
  obtain ⟨herr, hcause, hpix, hdm, hpixBelow, hdmBelow⟩ := h.faultsAndMemoriesOk
  exact inv_of_idle hidle (h.idle_of_not_busy hidle)
    ⟨herr, hcause, Memory.wf_write _ _ _ hpix, hdm, Memory.below_write _ _ _ _ hpixBelow hn, hdmBelow⟩

theorem State.FaultsAndMemoriesOk.writeDm (h : s.FaultsAndMemoriesOk cfg) {a : Nat} (ha : a < cfg.dmWords) (v : Word) :
    (s.writeDm a v).FaultsAndMemoriesOk cfg := by
  obtain ⟨herr, hcause, hpix, hdm, hpixBelow, hdmBelow⟩ := h
  exact ⟨herr, hcause, hpix, Memory.wf_write _ _ _ hdm, hpixBelow, Memory.below_write _ _ _ _ hdmBelow ha⟩

theorem inv_writeDm (h : s.Inv cfg) (hidle : s.busy = false) {a : Nat} (ha : a < cfg.dmWords) (v : Word) :
    (s.writeDm a v).Inv cfg :=
  inv_of_idle hidle (h.idle_of_not_busy hidle) (h.faultsAndMemoriesOk.writeDm ha v)

theorem inv_resetWith (cmdByte : Vector (Vector Byte 16) 8) (agenda : List Move) (readData : Option Word)
    (epoch draws : Nat) : (State.resetWith cmdByte agenda readData epoch draws).Inv cfg :=
  inv_of_idle rfl rfl ⟨iff_of_false Bool.false_ne_true (not_not_intro rfl), Nat.zero_le 4, rfl, rfl, rfl, rfl⟩

end HostMoves

section Quantize

variable {cfg : Config} {s : State}

/-! QUANTIZE: its start and its micro-step (40_quantize.md R91, R102). -/

theorem inv_startQuantize (h : s.Inv cfg) (hidle : s.busy = false) (hfits : s.pixels ≤ cfg.maxPixels) :
    (startQuantize s).Inv cfg := by
  have hok := h.faultsAndMemoriesOk
  by_cases hempty : s.pixels = 0
  · rw [startQuantize_of_empty hempty]
    exact inv_of_idle hidle (h.idle_of_not_busy hidle) (hok.congr rfl rfl rfl rfl)
  · rw [startQuantize_of_nonempty hempty]
    refine (inv_iff_of_qRun rfl).mpr ⟨⟨rfl, rfl, hfits, Nat.pos_of_ne_zero hempty, ?_⟩, hok.congr rfl rfl rfl rfl⟩
    exact Nat.two_pow_pos _

theorem wordFull_iff : wordFull s = true ↔ s.i.toNat % 32 = 31 ∨ s.i.toNat + 1 = s.pixels := by
  simp [wordFull, lastPixel]

theorem quantizeStore_of_full (h : s.i.toNat % 32 = 31 ∨ s.i.toNat + 1 = s.pixels) :
    quantizeStore cfg s = { s.writeDm (s.i.toNat / 32) (quantizeAcc cfg s) with acc := 0 } := by
  rw [quantizeStore, if_pos (wordFull_iff.mpr h)]

theorem quantizeStore_of_not_full (h : ¬ (s.i.toNat % 32 = 31 ∨ s.i.toNat + 1 = s.pixels)) :
    quantizeStore cfg s = { s with acc := quantizeAcc cfg s } := by
  rw [quantizeStore, if_neg (mt wordFull_iff.mp h)]

/-- A dot put above all bits of a word leaves it below the next power of two. -/
theorem orDot_lt {acc : Word} {b : Nat} (h : acc.toNat < 2 ^ b) (dot : Bool) :
    (orDot acc b dot).toNat < 2 ^ (b + 1) := by
  have hdot : ((BitVec.ofBool dot).setWidth 32 <<< b).toNat < 2 ^ (b + 1) := by
    have hbit : ((BitVec.ofBool dot).setWidth 32).toNat ≤ 1 := by cases dot <;> decide
    calc ((BitVec.ofBool dot).setWidth 32 <<< b).toNat
        ≤ ((BitVec.ofBool dot).setWidth 32).toNat * 2 ^ b := by
          rw [BitVec.toNat_shiftLeft, Nat.shiftLeft_eq]
          exact Nat.mod_le _ _
      _ ≤ 1 * 2 ^ b := Nat.mul_le_mul_right _ hbit
      _ < 2 ^ (b + 1) := by rw [pow_succ]; have := Nat.two_pow_pos b; omega
  rw [orDot, BitVec.toNat_or]
  exact Nat.or_lt_two_pow (h.trans (Nat.pow_lt_pow_right (by decide) (Nat.lt_succ_self b))) hdot

/-- The next pixel's number does not wrap: N is at most 65535². -/
theorem next_pixel (hpixel : s.i.toNat < s.pixels) : (s.i + 1).toNat = s.i.toNat + 1 := by
  have hpixels := s.pixels_le_default
  have hmax : Config.btq.maxPixels = 4294836225 := rfl
  bv_omega

theorem quantizeStore_ok (hok : s.FaultsAndMemoriesOk cfg) (hpresent : s.i.toNat < cfg.maxPixels) :
    (quantizeStore cfg s).FaultsAndMemoriesOk cfg := by
  have hword : s.i.toNat / 32 < cfg.dmWords := by rw [Config.dmWords]; omega
  unfold quantizeStore
  split
  · exact (hok.writeDm hword _).congr rfl rfl rfl rfl
  · exact hok.congr rfl rfl rfl rfl

/-- ACC goes on with one more dot, or is cleared as its word is full. -/
theorem quantizeStore_acc_lt (h : s.Quantizing cfg) (hlast : s.i.toNat + 1 ≠ s.pixels) :
    (quantizeStore cfg s).acc.toNat < 2 ^ ((s.i.toNat + 1) % 32) := by
  by_cases hfull : s.i.toNat % 32 = 31
  · rw [quantizeStore_of_full (.inl hfull)]
    exact Nat.two_pow_pos _
  · have hnext : (s.i.toNat + 1) % 32 = s.i.toNat % 32 + 1 := by omega
    rw [quantizeStore_of_not_full (by tauto), hnext]
    exact orDot_lt h.acc _

theorem inv_quantizeStep (h : s.Inv cfg) (hphase : s.phase = .qRun) (hpresent : s.i.toNat < cfg.maxPixels) :
    (quantizeStep cfg s).Inv cfg := by
  obtain ⟨hrun, hok⟩ := (inv_iff_of_qRun hphase).mp h
  have hstored := quantizeStore_ok hok hpresent
  by_cases hlast : s.i.toNat + 1 = s.pixels
  · rw [quantizeStep_of_last cfg hlast]
    exact inv_of_idle rfl rfl (hstored.congr rfl rfl rfl rfl)
  · have hacc := quantizeStore_acc_lt hrun hlast
    have hpixel : (s.i + 1).toNat < s.pixels := by
      have := hrun.pixel
      rw [next_pixel hrun.pixel]
      omega
    obtain ⟨dm, acc, hstore⟩ := quantizeStore_frame cfg s
    rw [quantizeStep_of_not_last cfg hlast]
    rw [← next_pixel hrun.pixel] at hacc
    rw [hstore] at hacc hstored ⊢
    exact (inv_iff_of_qRun (s := { s with dm := dm, acc := acc, i := s.i + 1 }) hphase).mpr
      ⟨⟨hrun.busy, hrun.done, hrun.fits, hpixel, hacc⟩, hstored.congr rfl rfl rfl rfl⟩

end Quantize

section Encode

variable {cfg : Config} {s : State} {n : Fin 8}

/-! ENCODE: its start, and the transition of an accepted byte (42_format.md R126, R136). -/

theorem one_le_lenOf (h : s.allPresent cfg = true) (n : Fin 8) : 0 < (s.lenOf n).toNat :=
  ((s.allPresent_iff cfg).mp h n).1

theorem inv_startEncode (h : s.Inv cfg) (hidle : s.busy = false) (hpresent : s.allPresent cfg = true)
    (hfits : s.pixels ≤ cfg.maxPixels) (m : BitVec 2) : (startEncode cfg m s).Inv cfg := by
  have hok := h.faultsAndMemoriesOk
  rw [startEncode_eq]
  split
  · exact inv_of_idle hidle (h.idle_of_not_busy hidle) (hok.congr rfl rfl rfl rfl)
  · exact (inv_iff_of_emitting rfl).mpr
      ⟨⟨rfl, rfl, hfits, hpresent, rfl, rfl, one_le_lenOf hpresent entryLsSet⟩, hok.congr rfl rfl rfl rfl⟩

/-- The transition leads to another place of the same ENCODE, or completes it. -/
inductive State.GoesOn (cfg : Config) (s t : State) : Prop where
  | encoding (hphase : t.phase.emitting = true) (h : t.Encoding cfg)
  | completed (hphase : t.phase = .idle) (hidle : t.busy = false)

/-- J moves to the next byte of the entry without wrapping. -/
theorem next_byte (hj : s.j.toNat < (s.lenOf n).toNat) (hmore : s.j.toNat + 1 ≠ (s.lenOf n).toNat) :
    (s.j + 1).toNat < (s.lenOf n).toNat := by
  bv_omega

theorem next_column (hx : s.x.toNat < s.width.toNat) (hmore : s.x.toNat + 1 ≠ s.width.toNat) :
    (s.x + 1).toNat < s.width.toNat := by
  bv_omega

/-- OFFSET moves to the next band without wrapping: its first row is a row of the matrix. -/
theorem next_band (hmore : s.offset.toNat + 24 < s.height.toNat) : (s.offset + 24).toNat = s.offset.toNat + 24 := by
  have hheight := s.height.isLt
  bv_omega

/-- A band of the next rows, on the banded path. -/
theorem State.InBand.next (h : s.InBand) (hbanded : s.fast = false) (hmore : s.offset.toNat + 24 < s.height.toNat) :
    BandAt s.width s.height (s.offset + 24) s.fast where
  columns := h.columns
  rows := h.rows
  band := by rw [next_band hmore, Nat.add_mod_right]; exact h.band
  row := by rwa [next_band hmore]
  path hfast := by simp [hbanded] at hfast

/-- The first band of a matrix that is not degenerate. -/
theorem bandAt_zero (hmatrix : ¬ (s.width = 0 ∨ s.height = 0)) : BandAt s.width s.height 0 s.fast := by
  obtain ⟨hwidth, hheight⟩ : 1 ≤ s.width.toNat ∧ 1 ≤ s.height.toNat := by
    rw [not_or] at hmatrix
    constructor <;> bv_omega
  exact ⟨hwidth, hheight, rfl, hheight, fun _ => rfl⟩

theorem emitting_of_offered {b : Byte} (h : offered cfg s = .next b) : s.phase.emitting = true := by
  cases hphase : s.phase
  case idle => exact absurd h (not_offered_of_idle hphase b)
  case qRun => exact absurd h (not_offered_of_qRun hphase b)
  all_goals rfl

theorem State.Encoding.goesOn_in {t : State} (h : t.Encoding cfg) : s.GoesOn cfg t := by
  refine .encoding ?_ h
  cases hphase : t.phase
  case idle => exact absurd h.position (not_position_of_idle hphase)
  case qRun => exact absurd h.position (not_position_of_qRun hphase)
  all_goals rfl

theorem advance_goesOn (h : s.Encoding cfg) : s.GoesOn cfg (advance s) := by
  have hstart := one_le_lenOf h.present
  have hposition := h.position
  cases hphase : s.phase
  case idle => exact absurd hposition (not_position_of_idle hphase)
  case qRun => exact absurd hposition (not_position_of_qRun hphase)
  case eLs =>
    obtain ⟨hoffset, hj⟩ := (position_of_eLs hphase).mp hposition
    rw [advance_of_eLs hphase]
    split
    case isTrue => exact State.Encoding.goesOn_in { h with position := (position_of_eLs24 rfl).mpr ⟨hoffset, rfl⟩ }
    case isFalse hmore =>
      exact State.Encoding.goesOn_in { h with
        position := (position_of_eLs (s := { s with j := s.j + 1 }) hphase).mpr ⟨hoffset, next_byte hj hmore⟩ }
  case eLs24 =>
    obtain ⟨hoffset, hj⟩ := (position_of_eLs24 hphase).mp hposition
    rw [advance_of_eLs24 hphase]
    refine State.Encoding.goesOn_in { h with position := ⟨hoffset, ?_⟩ }
    rw [hj]
    exact hstart _
  case eSize =>
    obtain ⟨hoffset, hj⟩ := (position_of_eSize hphase).mp hposition
    rw [advance_of_eSize hphase]
    split_ifs with hlast hmatrix
    · exact .completed rfl rfl
    · refine State.Encoding.goesOn_in { h with position := ⟨?_, hstart _⟩ }
      have hband := bandAt_zero hmatrix
      rwa [← hoffset] at hband
    · exact State.Encoding.goesOn_in
        { h with
          position := (position_of_eSize (s := { s with j := s.j + 1 }) hphase).mpr ⟨hoffset, next_byte hj hlast⟩ }
  case eBop =>
    obtain ⟨hband, hj⟩ := (position_of_eBop hphase).mp hposition
    rw [advance_of_eBop hphase]
    split
    case isTrue => exact State.Encoding.goesOn_in { h with position := hband }
    case isFalse hmore =>
      exact State.Encoding.goesOn_in { h with
        position := (position_of_eBop (s := { s with j := s.j + 1 }) hphase).mpr ⟨hband, next_byte hj hmore⟩ }
  case eWlo =>
    have hband := (position_of_eWlo hphase).mp hposition
    rw [advance_of_eWlo hphase]
    exact State.Encoding.goesOn_in { h with position := hband }
  case eWhi =>
    have hband := (position_of_eWhi hphase).mp hposition
    rw [advance_of_eWhi hphase]
    exact State.Encoding.goesOn_in { h with position := ⟨hband, hband.columns, Nat.zero_le 2, fun _ => rfl⟩ }
  case eData =>
    obtain ⟨hband, hx, hk, hpath⟩ := (position_of_eData hphase).mp hposition
    obtain hfast | hbanded := Bool.eq_false_or_eq_true s.fast
    · rw [advance_of_eData_fast hphase hfast]
      split
      case isTrue => exact .completed rfl rfl
      case isFalse hmore =>
        exact State.Encoding.goesOn_in
          { h with
            position := (position_of_eData (s := { s with x := s.x + 1 }) hphase).mpr
              ⟨hband, next_column hx hmore, hk, hpath⟩ }
    · have hnotFast (hfast : s.fast = true) : False := by simp [hbanded] at hfast
      rw [advance_of_eData_banded hphase hbanded]
      split_ifs with hmoreBytes hlast
      · have hk' : (s.k + 1).toNat ≤ 2 := by bv_omega
        exact State.Encoding.goesOn_in
          { h with
            position := (position_of_eData (s := { s with k := s.k + 1 }) hphase).mpr
              ⟨hband, hx, hk', fun hf => (hnotFast hf).elim⟩ }
      · exact State.Encoding.goesOn_in { h with position := ⟨hband, hbanded, hstart _⟩ }
      · exact State.Encoding.goesOn_in
          { h with
            position := (position_of_eData (s := { s with k := 0, x := s.x + 1 }) hphase).mpr
              ⟨hband, next_column hx hlast, Nat.zero_le 2, fun _ => rfl⟩ }
  case eLf =>
    obtain ⟨hband, hbanded, hj⟩ := (position_of_eLf hphase).mp hposition
    rw [advance_of_eLf hphase]
    split_ifs with hlast hmoreRows
    · exact State.Encoding.goesOn_in { h with position := ⟨hband.next hbanded hmoreRows, hstart _⟩ }
    · exact .completed rfl rfl
    · exact State.Encoding.goesOn_in
        { h with
          position := (position_of_eLf (s := { s with j := s.j + 1 }) hphase).mpr ⟨hband, hbanded, next_byte hj hlast⟩ }

theorem inv_accepted (h : s.Inv cfg) {b : Byte} (hoffered : offered cfg s = .next b) :
    ((advance s).emit b).Inv cfg := by
  have hemitting : s.phase.emitting = true := emitting_of_offered hoffered
  obtain ⟨hencoding, hok⟩ := (inv_iff_of_emitting hemitting).mp h
  have hokNext : (advance s).FaultsAndMemoriesOk cfg := by
    rw [advance_frame]
    exact hok.congr rfl rfl rfl rfl
  suffices hnext : (advance s).Inv cfg from hnext
  obtain ⟨hphase, hnext⟩ | ⟨hphase, hidle⟩ := advance_goesOn hencoding
  · exact (inv_iff_of_emitting hphase).mpr ⟨hnext, hokNext⟩
  · exact inv_of_idle hidle hphase hokNext

end Encode

section Steps

variable {cfg : Config} {s t : State}

/-! Every move keeps the invariant, and so does every step. -/

theorem Effect.inv {i : Instr} (h : Effect cfg s i t) (hinv : s.Inv cfg) : t.Inv cfg := by
  cases h with
  | raised c => exact inv_raise hinv c
  | dropped => exact hinv
  | quantizeStarted _ hidle _ hfits => exact inv_startQuantize hinv hidle hfits
  | encodeStarted m _ hidle _ hpresent hfits => exact inv_startEncode hinv hidle hpresent hfits m
  | registerWritten r v reg hidle => exact inv_writeReg hinv hidle v reg
  | sampleWritten n v hidle hpresent => exact inv_writePix hinv hidle hpresent v
  | wordWritten a v hidle hpresent => exact inv_writeDm hinv hidle hpresent v
  | answered v draws => exact inv_answered hinv v draws
  | accepted b hoffered => exact inv_accepted hinv hoffered
  | stepped hphase hpresent => exact inv_quantizeStep hinv hphase hpresent

theorem inv_execIn {i : Instr} (hinv : s.Inv cfg) (h : execIn cfg i s = .next t) : t.Inv cfg := by
  by_cases hi : i = .reset
  · subst hi
    obtain rfl := Host.Outcome.next.inj h
    exact inv_resetWith ..
  · exact (execIn_effect hi h).inv hinv

end Steps

/-- Settles O43: a step waits, or it makes one move on the state less that move, which the invariant does not read. -/
theorem everyStepKeepsTheInvariant : Obligations.EveryStepKeepsTheInvariant := by
  intro s t hinv h
  obtain ⟨_, rfl⟩ | ⟨i, rest, hexec⟩ := step_next h
  · exact hinv
  · rw [exec_eq_execIn] at hexec
    exact inv_execIn (inv_withAgenda hinv rest) hexec

/-- Settles O44: after a reset no phase is active and the memories list nothing. -/
theorem resetMeetsTheInvariant : Obligations.ResetMeetsTheInvariant := inv_resetWith ..

section Offset

variable {s : State}

/-! OFFSET (10_state.md R31). -/

theorem advance_offset (s : State) :
    (advance s).offset = s.offset ∨ (s.phase = .eLf ∧ (advance s).offset = s.offset + 24) := by
  cases h : s.phase
  case idle => rw [advance_of_idle h]; exact .inl rfl
  case qRun => rw [advance_of_qRun h]; exact .inl rfl
  case eLs => rw [advance_of_eLs h]; split <;> exact .inl rfl
  case eLs24 => rw [advance_of_eLs24 h]; exact .inl rfl
  case eSize => rw [advance_of_eSize h]; split_ifs <;> exact .inl rfl
  case eBop => rw [advance_of_eBop h]; split <;> exact .inl rfl
  case eWlo => rw [advance_of_eWlo h]; exact .inl rfl
  case eWhi => rw [advance_of_eWhi h]; exact .inl rfl
  case eData =>
    obtain hfast | hbanded := Bool.eq_false_or_eq_true s.fast
    · rw [advance_of_eData_fast h hfast]; split <;> exact .inl rfl
    · rw [advance_of_eData_banded h hbanded]; split_ifs <;> exact .inl rfl
  case eLf =>
    rw [advance_of_eLf h]
    split_ifs
    · exact .inr ⟨rfl, rfl⟩
    · exact .inr ⟨rfl, rfl⟩
    · exact .inl rfl

/-- The first row of a band is a row below 65535 and a multiple of 24. -/
theorem State.Position.offset_le (h : s.Position) : s.offset.toNat ≤ 65520 := by
  have hband (hin : s.phase.inBand = true) : s.offset.toNat ≤ 65520 := by
    obtain ⟨_, _, hmultiple, hrow, _⟩ := h.inBand hin
    have hheight := s.height.isLt
    omega
  have hopening (hphase : s.phase = .eLs ∨ s.phase = .eLs24 ∨ s.phase = .eSize) : s.offset.toNat ≤ 65520 := by
    rw [h.opening hphase]
    exact Nat.zero_le _
  cases hphase : s.phase with
  | idle => exact absurd h (not_position_of_idle hphase)
  | qRun => exact absurd h (not_position_of_qRun hphase)
  | eLs => exact hopening (.inl hphase)
  | eLs24 => exact hopening (.inr (.inl hphase))
  | eSize => exact hopening (.inr (.inr hphase))
  | eBop | eWlo | eWhi | eData | eLf => exact hband (hphase ▸ rfl)

end Offset

/-- Settles O42: a byte is offered only at a place of the stream, where OFFSET is at most 65520. -/
theorem offsetNeverWraps : Obligations.OffsetNeverWraps := by
  intro s t hinv h
  obtain ⟨b, hoffered, rfl⟩ := sinkAcceptIn_next (cfg := Config.btq) h
  obtain ⟨hencoding, _⟩ := (inv_iff_of_emitting (emitting_of_offered hoffered)).mp hinv
  have hle := hencoding.position.offset_le
  rw [State.emit_offset]
  obtain hkept | ⟨_, hnext⟩ := advance_offset s
  · rw [hkept]
    exact ⟨by omega, .inl rfl⟩
  · have hexact : (s.offset + 24).toNat = s.offset.toNat + 24 := by bv_omega
    rw [hnext, hexact]
    exact ⟨by omega, .inr rfl⟩

section Enabled

variable {s : State} {i : Instr}

/-- The move is one of the host's that exists, or one of the block's that is enabled (43_host_access.md R155, R158,
R160). -/
def moveEnabled (i : Instr) (s : State) : Prop :=
  i.wf = true ∧ (i = .sinkAccept → s.phase.emitting = true) ∧ (i = .qstep → s.phase = .qRun)

/-- At each place of the stream there is a byte to offer (42_format.md R136). -/
theorem exists_offered (h : s.Encoding Config.btq) : ∃ b, offered Config.btq s = .next b := by
  have hposition := h.position
  have hbyte {n : Fin 8} (hentry : s.emittedEntry = some n) : ∃ b, offered Config.btq s = .next b := by
    have hj := hposition.string hentry
    obtain ⟨_, hlen⟩ := (s.allPresent_iff Config.btq).mp h.present n
    exact ⟨_, offered_of_emittedEntry hentry (hj.trans_le hlen)⟩
  cases hphase : s.phase with
  | idle => exact absurd hposition (not_position_of_idle hphase)
  | qRun => exact absurd hposition (not_position_of_qRun hphase)
  | eLs => exact hbyte (emittedEntry_of_eLs hphase)
  | eLs24 => exact ⟨_, offered_of_eLs24 hphase⟩
  | eSize => exact hbyte (emittedEntry_of_eSize hphase)
  | eBop => exact hbyte (emittedEntry_of_eBop hphase)
  | eWlo => exact ⟨_, offered_of_eWlo hphase⟩
  | eWhi => exact ⟨_, offered_of_eWhi hphase⟩
  | eData => exact ⟨_, offered_of_eData hphase ((position_of_eData hphase).mp hposition).2.1⟩
  | eLf => exact hbyte (emittedEntry_of_eLf hphase)

theorem exec_answers_of_enabled (hinv : s.Inv Config.btq) (h : moveEnabled i s) : ∃ t, exec i s = .next t := by
  obtain ⟨hwf, hsink, hqstep⟩ := h
  cases i with
  | quantize | encodeN | encode2W | encode2H | encodeQ | encodeUnknown4to7 | encodeUnknown8to15 | cmd | reset =>
    exact ⟨_, rfl⟩
  | wr r v =>
    obtain ⟨reg, hreg⟩ := exists_decodeReg_of_mapped hwf
    exact wrIn_answers_of_mapped hreg v s
  | rd r =>
    obtain ⟨reg, hreg⟩ := exists_decodeReg_of_mapped hwf
    exact ⟨_, rdIn_of_register hreg s⟩
  | pixw n v => exact ⟨_, pixwIn_of_present (of_decide_eq_true hwf) v s⟩
  | pixr n => exact ⟨_, pixrIn_of_present (of_decide_eq_true hwf) s⟩
  | dmw a v => exact ⟨_, dmwIn_of_present (of_decide_eq_true hwf) v s⟩
  | dmr a => exact ⟨_, dmrIn_of_present (of_decide_eq_true hwf) s⟩
  | sinkAccept =>
    obtain ⟨b, hoffered⟩ := exists_offered ((inv_iff_of_emitting (hsink rfl)).mp hinv).1
    exact ⟨_, exec_sinkAccept_of_offered hoffered⟩
  | qstep =>
    have hphase := hqstep rfl
    have hpixel := ((inv_iff_of_qRun hphase).mp hinv).1.pixel
    exact ⟨_, qstepIn_of_pixel_present hphase (hpixel.trans_le s.pixels_le_default)⟩

/-- What is not enabled is refused, in every state. -/
theorem exec_refuses_of_not_enabled (h : ¬ moveEnabled i s) : ∃ why, exec i s = .refused why := by
  have hwf (hsink : i ≠ .sinkAccept) (hqstep : i ≠ .qstep) : i.wf = false :=
    Bool.eq_false_of_not_eq_true fun hwf => h ⟨hwf, fun heq => absurd heq hsink, fun heq => absurd heq hqstep⟩
  cases i with
  | quantize | encodeN | encode2W | encode2H | encodeQ | encodeUnknown4to7 | encodeUnknown8to15 | cmd | reset =>
    exact absurd (hwf (by simp) (by simp)) (by simp [Instr.wf, Instr.wfIn])
  | wr r v => exact ⟨_, wrIn_of_unmapped ((decodeReg_btq_eq_none_iff r).mpr (hwf (by simp) (by simp))) v s⟩
  | rd r => exact ⟨_, rdIn_of_unmapped ((decodeReg_btq_eq_none_iff r).mpr (hwf (by simp) (by simp))) s⟩
  | pixw n v => exact ⟨_, pixwIn_of_absent (Nat.not_lt.mp (of_decide_eq_false (hwf (by simp) (by simp)))) v s⟩
  | pixr n => exact ⟨_, pixrIn_of_absent (Nat.not_lt.mp (of_decide_eq_false (hwf (by simp) (by simp)))) s⟩
  | dmw a v => exact ⟨_, dmwIn_of_absent (Nat.not_lt.mp (of_decide_eq_false (hwf (by simp) (by simp)))) v s⟩
  | dmr a => exact ⟨_, dmrIn_of_absent (Nat.not_lt.mp (of_decide_eq_false (hwf (by simp) (by simp)))) s⟩
  | sinkAccept =>
    have hnotEmitting : s.phase.emitting ≠ true := fun hphase => h ⟨rfl, fun _ => hphase, by simp⟩
    cases hphase : s.phase with
    | idle => exact ⟨_, exec_sinkAccept_of_refused (offered_of_idle hphase)⟩
    | qRun => exact ⟨_, exec_sinkAccept_of_refused (offered_of_qRun hphase)⟩
    | _ => exact absurd (hphase ▸ rfl) hnotEmitting
  | qstep => exact ⟨_, qstepIn_of_not_qRun fun hphase => h ⟨rfl, by simp, fun _ => hphase⟩⟩

end Enabled

/-- Settles O45: an enabled move answers and any other is refused, so none faults. -/
theorem enabledMovesGoOn : Obligations.EnabledMovesGoOn := by
  refine fun i s hinv => ⟨fun f hfault => ?_, fun hwf hsink hqstep => exec_answers_of_enabled hinv ⟨hwf, hsink, hqstep⟩⟩
  by_cases h : moveEnabled i s
  · obtain ⟨t, ht⟩ := exec_answers_of_enabled hinv h
    rw [ht] at hfault
    cases hfault
  · obtain ⟨why, hwhy⟩ := exec_refuses_of_not_enabled h
    rw [hwhy] at hfault
    cases hfault

theorem State.endedWell_iff (s : State) :
    s.endedWell = true ↔ s.busy = false ∧ s.done = true ∧ s.err = false ∧ s.agenda = [] := by
  simp [State.endedWell, and_assoc]

/-- Settles O50: an ended run is idle by the invariant, has no move to make, and the block waits. -/
theorem anEndedRunStaysEnded : Obligations.AnEndedRunStaysEnded := by
  refine ⟨State.endedWell_iff, fun s hended => ?_, fun s hinv hended => ?_, rfl⟩
  · obtain ⟨hidle, _, herr, _⟩ := s.endedWell_iff.mp hended
    exact ⟨hidle, herr⟩
  · obtain ⟨hidle, _, _, hagenda⟩ := s.endedWell_iff.mp hended
    have hphase := hinv.idle_of_not_busy hidle
    rw [step_alone s hagenda, stepAlone_of_not_qRun (by simp [hphase])]

end Sys2Proof.Machine

/-! PROOFS. The streams of ENCODE: their length, what they depend on, and how the block emits them byte by byte. -/

namespace Sys2Proof.Machine

section Length

variable (w h : BitVec 16) (dm : Nat → Word) (cs : Fin 8 → List Byte)

/-! The length of a stream, segment by segment (30_encoding.md R81). -/

theorem widthField_length : (widthField w).length = 2 := rfl

theorem fastBand_length : (fastBand w h dm cs).length = (cs 5).length + 2 + w.toNat := by
  simp only [fastBand, List.length_append, widthField_length, List.length_map, List.length_range, entryBitImage1]

theorem band_length (o : Nat) :
    (band w h dm cs o).length = (cs 6).length + 2 + 3 * w.toNat + (cs 7).length := by
  have hcolumns : ((List.range w.toNat).flatMap fun x =>
      (List.range 3).map fun k => colByte w.toNat h.toNat dm x (o + 8 * k)).length = 3 * w.toNat := by
    simp [List.length_flatMap, Nat.mul_comm]
  simp only [band, List.length_append, widthField_length, hcolumns, entryBitImage33, entryCtlLf]

theorem streamPrefix_length (m : BitVec 2) :
    (streamPrefix m cs).length = (cs 0).length + 1 + (cs (sizeEntry m)).length := by
  simp only [streamPrefix, List.length_append, List.length_singleton, entryLsSet]

theorem bandCount_eq : bandCount h = (h.toNat + 23) / 24 := rfl

/-- All bands of the banded path are of one length. -/
theorem bands_length :
    (bands w h dm cs).length =
      if w = 0 ∨ h = 0 then 0
      else if h.toNat ≤ 8 then (cs 5).length + 2 + w.toNat
      else (h.toNat + 23) / 24 * ((cs 6).length + 2 + 3 * w.toNat + (cs 7).length) := by
  unfold bands
  split_ifs
  · rfl
  · exact fastBand_length w h dm cs
  · simp [List.length_flatMap, band_length, bandCount_eq]

end Length

/-- Settles O40: no segment is longer or shorter for its dots. -/
theorem streamLengthNeverDependsOnDots : Obligations.StreamLengthNeverDependsOnDots := by
  refine ⟨fun cfg w h dm m cs => ?_, State.cmdStr_length⟩
  intro size
  have hsize : sizeEntry m = size := sizeEntry_eq m
  by_cases hdegenerate : w = 0 ∨ h = 0
  · by_cases hpolicy : cfg.degenerate = .nothing
    · rw [encodeStream, if_pos ⟨hdegenerate, hpolicy⟩, if_pos hdegenerate, if_pos hpolicy]
      rfl
    · rw [encodeStream, if_neg fun h => hpolicy h.2, List.length_append, streamPrefix_length, bands_length, hsize,
        if_pos hdegenerate, if_pos hdegenerate, if_neg hpolicy, Nat.add_zero]
  · rw [encodeStream, if_neg fun h => hdegenerate h.1, List.length_append, streamPrefix_length, bands_length, hsize,
      if_neg hdegenerate, if_neg hdegenerate]
    split <;> ring

/-- Settles O41: the dots below N are all that a stream reads of the memory. -/
theorem padBitsNeverReachTheStream : Obligations.PadBitsNeverReachTheStream :=
  fun cfg _ _ _ _ m cs hdots => encodeStream_congr hdots cs cfg m

section Running

variable {s t u : State} {bytes : List Byte}

/-! An ENCODE in progress, after any number of its bytes (42_format.md R136). -/

/-- BUSY falls only with PHASE <- IDLE, where no byte is offered. -/
theorem advance_busy_of_offered {b : Byte} (hbusy : s.busy = true)
    (hoffered : offered Config.btq (advance s) = .next b) : (advance s).busy = true := by
  obtain ⟨hkept, _⟩ | ⟨_, _, hidle⟩ := advance_flags s
  · rw [hkept, hbusy]
  · exact absurd hoffered (not_offered_of_idle hidle b)

/-- While bytes of the stream are left the block is busy. -/
theorem Sends.take (h : Sends s bytes u) (hbusy : s.busy = true) {k : Nat} (hk : k < bytes.length) :
    ∃ v, Sends s (bytes.take k) v ∧ v.busy = true := by
  induction h generalizing k with
  | nil s => cases hk
  | @cons s u b bytes hoffered hrest ih =>
    cases k with
    | zero => exact ⟨s, .nil s, hbusy⟩
    | succ k =>
      have hk' : k < bytes.length := Nat.lt_of_succ_lt_succ hk
      have hbusy' : (advance s).busy = true := by
        cases hrest with
        | nil => cases hk'
        | cons hnext _ => exact advance_busy_of_offered hbusy hnext
      obtain ⟨v, hsends, hv⟩ := ih hbusy' hk'
      exact ⟨v, .cons hoffered hsends, hv⟩

/-- After `k` SINK.ACCEPTs, fewer than there are bytes: the block is busy, and OUT has grown by the first `k` bytes. -/
theorem Sends.run_take (h : Sends s bytes u) (hbusy : s.busy = true) {k : Nat} (hk : k < bytes.length) :
    ∃ v, repeatMove k .sinkAccept s = .next v ∧ v.busy = true ∧ v.out = s.out ++ bytes.take k := by
  obtain ⟨v, hsends, hv⟩ := h.take hbusy hk
  have hrun := hsends.run
  rw [List.length_take_of_le hk.le] at hrun
  exact ⟨_, hrun, hv, rfl⟩

end Running

/-- Settles O38: the accepted command leads to a block that sends the stream of R135, one byte a SINK.ACCEPT. -/
theorem encodeEmitsTheStream : Obligations.EncodeEmitsTheStream := by
  intro c s t hbusy herr hop hpresent hexec bytes
  obtain ⟨rfl, u, hsends, hcompleted⟩ := sends_stream_of_exec_cmd hbusy herr hop hpresent hexec
  refine ⟨fun k hk => hsends.run_take rfl hk, _, hsends.run, ?_⟩
  rw [hcompleted, hbusy]
  rfl

/-- Whatever ENCODE starts with the effective mode `m` sends what R77 opens the stream of that mode with. -/
theorem run_opening {s : State} (hpresent : ∀ n, 1 ≤ (s.lenOf n).toNat ∧ (s.lenOf n).toNat ≤ 8) (m : BitVec 2) :
    ∃ u, repeatMove ((s.cmdStr 0).length + 1 + (s.cmdStr (sizeEntry m)).length) .sinkAccept (encodeStarted m s)
        = .next u
      ∧ u.out = s.out ++ (s.cmdStr 0 ++ [0x18] ++ s.cmdStr (sizeEntry m)) := by
  have hrun := (sends_streamPrefix (s := encodeStarted m s) hpresent rfl rfl).run
  rw [streamPrefix_length] at hrun
  exact ⟨_, hrun, rfl⟩

/-- Settles O49: the rows start the modes 0 to 3, whose size opcodes are the entries 1 to 4. -/
theorem sizeOpcodeIsChosenByTheMode : Obligations.SizeOpcodeIsChosenByTheMode := by
  intro s hbusy herr hpresent opens
  have hopens {i : Instr} (mode : BitVec 4) (hexec : exec i s = encodeIn Config.btq mode s) :
      opens i (sizeEntry (effectiveMode mode)) := by
    obtain ⟨u, hrun, hout⟩ := run_opening hpresent (effectiveMode mode)
    exact ⟨_, u, hexec.trans (encodeIn_btq_of_idle mode hbusy herr hpresent), hrun, hout⟩
  exact ⟨hopens 0 rfl, hopens 1 rfl, hopens 2 rfl, hopens 3 rfl, fun low => hopens 0 (exec_encodeUnknown4to7 low s),
    fun low => hopens 0 (exec_encodeUnknown8to15 low s)⟩

end Sys2Proof.Machine

/-! PROOFS. The canonical form of a word memory, and the luminance in binary64. -/

namespace Sys2Proof.Machine

section Canonical

variable {lo a b : Nat} {v w : Word} {m m' : Memory}

/-! In canonical form a memory is what it reads as (log 11). -/

theorem Memory.risingFrom_cons :
    Memory.risingFrom lo ((a, v) :: m) = true ↔ lo ≤ a ∧ Memory.risingFrom (a + 1) m = true := by
  simp [Memory.risingFrom]

theorem Memory.read_of_lt (h : Memory.risingFrom lo m = true) {i : Nat} (hi : i < lo) : Memory.read m i = none := by
  induction m generalizing lo with
  | nil => rfl
  | cons c rest ih =>
    obtain ⟨a, v⟩ := c
    obtain ⟨hfirst, hrest⟩ := Memory.risingFrom_cons.mp h
    rw [Memory.read_cons, if_neg (by omega), ih hrest (by omega)]

theorem Memory.read_head : Memory.read ((a, v) :: m) a = some v := by
  rw [Memory.read_cons, if_pos rfl]

/-- The first index of a memory is one that nothing of another memory which reads alike comes before. -/
theorem Memory.head_le_head (h : Memory.risingFrom lo ((b, w) :: m') = true)
    (hread : ∀ i, Memory.read ((a, v) :: m) i = Memory.read ((b, w) :: m') i) : b ≤ a := by
  by_contra hlt
  have hrising := Memory.risingFrom_cons (v := w) |>.mpr ⟨le_refl b, (Memory.risingFrom_cons.mp h).2⟩
  have hnone := Memory.read_of_lt hrising (Nat.lt_of_not_le hlt)
  rw [← hread, Memory.read_head] at hnone
  cases hnone

theorem Memory.eq_of_read_eq (h : Memory.risingFrom lo m = true) (h' : Memory.risingFrom lo m' = true)
    (hread : ∀ i, Memory.read m i = Memory.read m' i) : m = m' := by
  induction m generalizing lo m' with
  | nil =>
    cases m' with
    | nil => rfl
    | cons c rest' =>
      have hhead := hread c.1
      rw [Memory.read_head] at hhead
      cases hhead
  | cons c rest ih =>
    obtain ⟨a, v⟩ := c
    cases m' with
    | nil =>
      have hhead := hread a
      rw [Memory.read_head] at hhead
      cases hhead
    | cons c' rest' =>
      obtain ⟨b, w⟩ := c'
      obtain rfl : a = b :=
        Nat.le_antisymm (Memory.head_le_head h fun i => (hread i).symm) (Memory.head_le_head h' hread)
      obtain rfl : v = w := by
        have hhead := hread a
        rw [Memory.read_head, Memory.read_head] at hhead
        exact Option.some.inj hhead
      have hrest := (Memory.risingFrom_cons.mp h).2
      have hrest' := (Memory.risingFrom_cons.mp h').2
      have hreadRest (i : Nat) : Memory.read rest i = Memory.read rest' i := by
        by_cases hi : a = i
        · rw [Memory.read_of_lt hrest (by omega), Memory.read_of_lt hrest' (by omega)]
        · have hcons := hread i
          rwa [Memory.read_cons, Memory.read_cons, if_neg hi, if_neg hi] at hcons
      rw [ih hrest hrest' hreadRest]

end Canonical

/-- Settles O46: the first indices agree, then the words there, then the rest. -/
theorem canonicalMemoriesReadAlikeAreEqual : Obligations.CanonicalMemoriesReadAlikeAreEqual :=
  fun _ _ => Memory.eq_of_read_eq

section Binary64

/-! BINARY64_LTR (40_quantize.md R96; log 18). All numbers are in units of 2^-56. Each of the five roundings is off by
at most 2^11 of them and each rounded literal by a few, while two different multiples of 1/100 are 2^56 / 100 apart: so the
rounding cannot reach the next integer unless the exact value is one. -/

/-- A rounded quotient is the quotient or the next number. -/
theorem roundHalfEven_near {num den : Nat} (hden : 0 < den) :
    num ≤ roundHalfEven num den * den + den ∧ roundHalfEven num den * den ≤ num + den := by
  have hdivision := Nat.div_add_mod num den
  have hremainder := Nat.mod_lt num hden
  have hquotient : num / den ≤ roundHalfEven num den ∧ roundHalfEven num den ≤ num / den + 1 := by
    simp only [roundHalfEven]
    split_ifs <;> omega
  have hlow : num / den * den ≤ roundHalfEven num den * den := Nat.mul_le_mul_right den hquotient.1
  have hhigh : roundHalfEven num den * den ≤ (num / den + 1) * den := Nat.mul_le_mul_right den hquotient.2
  rw [Nat.add_mul, Nat.one_mul] at hhigh
  rw [Nat.mul_comm den] at hdivision
  omega

/-- Below 2^8 a binary64 number has its last place at 2^-45 or lower. -/
theorem roundBinary64_near {n : Nat} (h : n < 2 ^ 64) :
    n ≤ roundBinary64 n + 2048 ∧ roundBinary64 n ≤ n + 2048 := by
  have hdrop : n.log2 + 1 - 53 ≤ 11 := by
    by_cases hzero : n = 0
    · subst hzero; decide
    · have hlog : n.log2 < 64 := (Nat.log2_lt hzero).mpr h
      omega
  have hplace : 2 ^ (n.log2 + 1 - 53) ≤ 2048 := Nat.pow_le_pow_right (by decide) hdrop
  obtain ⟨hlow, hhigh⟩ := roundHalfEven_near (num := n) (Nat.two_pow_pos (n.log2 + 1 - 53))
  rw [roundBinary64]
  omega

theorem binary64_0_3_eq : binary64_0_3 = 21617278211378380 := by decide

theorem binary64_0_59_eq : binary64_0_59 = 42513980482377480 := by decide

theorem binary64_0_11_eq : binary64_0_11 = 7926335344172073 := by decide

/-- The value of R96's formula in binary64, before it is floored. -/
def binary64Value (r g b : Byte) : Nat :=
  roundBinary64 (roundBinary64 (roundBinary64 (binary64_0_3 * r.toNat) + roundBinary64 (binary64_0_59 * g.toNat))
    + roundBinary64 (binary64_0_11 * b.toNat))

theorem lumaBinary64_eq (r g b : Byte) : lumaBinary64 r g b = binary64Value r g b / 2 ^ 56 := rfl

/-- All roundings together are off by less than 2^14 units. -/
theorem binary64Value_near (r g b : Byte) :
    100 * binary64Value r g b ≤ (30 * r.toNat + 59 * g.toNat + 11 * b.toNat) * 2 ^ 56 + 100 * 2 ^ 14
      ∧ (30 * r.toNat + 59 * g.toNat + 11 * b.toNat) * 2 ^ 56 ≤ 100 * binary64Value r g b + 100 * 2 ^ 14 := by
  have hr := r.isLt
  have hg := g.isLt
  have hb := b.isLt
  rw [binary64Value, binary64_0_3_eq, binary64_0_59_eq, binary64_0_11_eq]
  have hred := roundBinary64_near (n := 21617278211378380 * r.toNat) (by omega)
  have hgreen := roundBinary64_near (n := 42513980482377480 * g.toNat) (by omega)
  have hblue := roundBinary64_near (n := 7926335344172073 * b.toNat) (by omega)
  generalize roundBinary64 (21617278211378380 * r.toNat) = red at *
  generalize roundBinary64 (42513980482377480 * g.toNat) = green at *
  generalize roundBinary64 (7926335344172073 * b.toNat) = blue at *
  have hpair := roundBinary64_near (n := red + green) (by omega)
  generalize roundBinary64 (red + green) = pair at *
  have hall := roundBinary64_near (n := pair + blue) (by omega)
  generalize roundBinary64 (pair + blue) = all at *
  omega

end Binary64

/-- Settles O32: two different multiples of 1/100 are further apart than the rounding reaches. -/
theorem binary64LuminanceIsAtMostOneLess : Obligations.Binary64LuminanceIsAtMostOneLess := by
  intro r g b
  have hnear := binary64Value_near r g b
  rw [lumaBinary64_eq, lumaExact]
  omega

end Sys2Proof.Machine

/-! PROOFS. The micro-step of QUANTIZE, and the matrix that N of them write. -/

namespace Sys2Proof.Machine

section MicroStep

variable {cfg : Config} {s : State}

/-! One QSTEP (40_quantize.md R102): what it does to each field it touches. -/

theorem exec_qstep_of_qRun (hphase : s.phase = .qRun) (hi : s.i.toNat < 4294836225) :
    exec .qstep s = .next (quantizeStep Config.btq s) :=
  qstepIn_of_pixel_present (cfg := Config.btq) hphase hi

theorem quantizeStep_acc (cfg : Config) (s : State) : (quantizeStep cfg s).acc = (quantizeStore cfg s).acc := by
  unfold quantizeStep
  split <;> rfl

theorem quantizeStep_dm (cfg : Config) (s : State) : (quantizeStep cfg s).dm = (quantizeStore cfg s).dm := by
  unfold quantizeStep
  split <;> rfl

theorem quantizeStep_readDm (cfg : Config) (s : State) :
    (quantizeStep cfg s).readDm = (quantizeStore cfg s).readDm := by
  unfold quantizeStep
  split <;> rfl

/-- A full word is written, and ACC is cleared. -/
theorem quantizeStore_readDm_of_full (h : s.i.toNat % 32 = 31 ∨ s.i.toNat + 1 = s.pixels) (a : Nat) :
    (quantizeStore cfg s).readDm a = if a = s.i.toNat / 32 then quantizeAcc cfg s else s.readDm a := by
  rw [quantizeStore_of_full h]
  exact s.readDm_writeDm (s.i.toNat / 32) (quantizeAcc cfg s) a

/-- The dot as the number that `orDot` shifts into place. -/
theorem orDot_decide (acc : Word) (b : Nat) (p : Prop) [Decidable p] :
    orDot acc b (decide p) = acc ||| ((if p then 1 else 0) <<< b) := by
  rw [orDot]
  by_cases hp : p
  · rw [decide_eq_true hp, if_pos hp]; rfl
  · rw [decide_eq_false hp, if_neg hp]; rfl

end MicroStep

/-- Settles O33: whether the word is full decides what happens to DM and ACC, whether the pixel is the last decides the
rest. -/
theorem qstepThresholdsOnePixel : Obligations.QstepThresholdsOnePixel := by
  intro s hphase hi p luminance acc last full
  have hacc : quantizeAcc Config.btq s = acc := orDot_decide s.acc (s.i.toNat % 32) (s.threshold.toNat < luminance)
  refine ⟨_, exec_qstep_of_qRun hphase hi, quantizeStep_frame Config.btq s, fun hfull => ?full, fun hfull => ?more,
    fun hlast => ?last, fun hlast => ?goesOn⟩
  case full =>
    rw [quantizeStep_acc, quantizeStep_readDm]
    refine ⟨?_, fun a => ?_⟩
    · rw [quantizeStore_of_full hfull]
    · rw [quantizeStore_readDm_of_full hfull, hacc]
  case more => rw [quantizeStep_acc, quantizeStep_dm, quantizeStore_of_not_full hfull, hacc]; exact ⟨rfl, rfl⟩
  case last =>
    obtain ⟨dm, acc, hstore⟩ := quantizeStore_frame Config.btq s
    rw [quantizeStep_of_last _ hlast, hstore]
    exact ⟨rfl, rfl, rfl, rfl⟩
  case goesOn =>
    obtain ⟨dm, acc, hstore⟩ := quantizeStore_frame Config.btq s
    rw [quantizeStep_of_not_last _ hlast, hstore]
    exact ⟨rfl, hphase, rfl, rfl⟩

/-- One more move at the end of a run. -/
theorem repeatMove_succ {n : Nat} {i : Instr} {s t : State} (h : repeatMove n i s = .next t) :
    repeatMove (n + 1) i s = exec i t := by
  induction n generalizing s with
  | zero =>
    obtain rfl := Host.Outcome.next.inj h
    rw [repeatMove]
    cases exec i s <;> rfl
  | succ n ih =>
    rw [repeatMove] at h ⊢
    cases hexec : exec i s with
    | next u => rw [hexec] at h; exact ih h
    | fault f => rw [hexec] at h; cases h
    | refused r => rw [hexec] at h; cases h

/-- The words below number `w` hold the thresholded matrix of `s`, the others what they held in `s`. -/
structure State.WrittenTo (s : State) (w : Nat) (v : State) : Prop where
  matrix : ∀ p, p / 32 < w → dotAt v.readDm p = s.quantizedDot Config.btq p
  rest : ∀ a, w ≤ a → v.readDm a = s.readDm a

/-- The state `v` is that of the QUANTIZE accepted in `s` after `k` QSTEPs, pixel `k` being the next. -/
structure State.QuantizedTo (s : State) (k : Nat) (v : State) : Prop where
  frame : v = { s with
    done := false, busy := true, phase := .qRun, i := BitVec.ofNat 32 k, dm := v.dm, acc := v.acc }
  written : s.WrittenTo (k / 32) v
  acc : ∀ j, j < 32 → v.acc.getLsbD j =
    (decide (j < k % 32) && dotOf Config.btq s.threshold (s.readPix (32 * (k / 32) + j)))

section Run

variable {s v : State} {k : Nat}

theorem orDot_getLsbD (acc : Word) {b j : Nat} (hb : b < 32) (hj : j < 32) (dot : Bool) :
    (orDot acc b dot).getLsbD j = (acc.getLsbD j || (decide (j = b) && dot)) := by
  have hplace : (!decide (j < b) && decide (j - b = 0)) = decide (j = b) := by
    rw [← decide_not, ← Bool.decide_and]
    exact decide_eq_decide.mpr (by omega)
  have hsmall : j - b < 32 := by omega
  rw [orDot, BitVec.getLsbD_or, BitVec.getLsbD_shiftLeft, BitVec.getLsbD_setWidth, BitVec.getLsbD_ofBool,
    decide_eq_true hj, decide_eq_true hsmall, Bool.true_and, Bool.true_and, ← Bool.and_assoc, hplace]

theorem State.QuantizedTo.i_toNat (h : s.QuantizedTo k v) (hk : k < s.pixels) : v.i.toNat = k := by
  have hpixels := s.pixels_le_default
  have hmax : Config.btq.maxPixels = 4294836225 := rfl
  rw [congrArg State.i h.frame, BitVec.toNat_ofNat]
  omega

theorem State.QuantizedTo.pixels (h : s.QuantizedTo k v) : v.pixels = s.pixels := by rw [h.frame]; rfl

/-- ACC with one more dot. -/
theorem State.QuantizedTo.quantizeAcc (h : s.QuantizedTo k v) (hk : k < s.pixels) {j : Nat} (hj : j < 32) :
    (quantizeAcc Config.btq v).getLsbD j =
      (decide (j ≤ k % 32) && dotOf Config.btq s.threshold (s.readPix (32 * (k / 32) + j))) := by
  have hthreshold : v.threshold = s.threshold := by rw [h.frame]
  have hsample : v.readPix = s.readPix := by rw [h.frame]; rfl
  rw [Machine.quantizeAcc, hthreshold, hsample, h.i_toNat hk, orDot_getLsbD _ (by omega) hj, h.acc j hj]
  by_cases hhere : j = k % 32
  · have hpixel : 32 * (k / 32) + j = k := by omega
    rw [hpixel]
    simp [hhere]
  · have hbelow : j ≤ k % 32 ↔ j < k % 32 := by omega
    simp [hhere, hbelow]

/-- The full word is one of the matrix, pad bits included. -/
theorem State.QuantizedTo.store_full (h : s.QuantizedTo k v) (hk : k < s.pixels)
    (hfull : k % 32 = 31 ∨ k + 1 = s.pixels) : s.WrittenTo (k / 32 + 1) (quantizeStore Config.btq v) := by
  have hi := h.i_toNat hk
  have hread (a : Nat) : (quantizeStore Config.btq v).readDm a =
      if a = k / 32 then Machine.quantizeAcc Config.btq v else v.readDm a := by
    have hfull' : v.i.toNat % 32 = 31 ∨ v.i.toNat + 1 = v.pixels := by rwa [hi, h.pixels]
    rw [quantizeStore_readDm_of_full hfull', hi]
  constructor
  · intro p hp
    rw [dotAt, hread]
    split
    case isTrue hword =>
      have hpixel : 32 * (k / 32) + p % 32 = p := by omega
      have hin : (p % 32 ≤ k % 32) ↔ p < s.pixels := by omega
      rw [h.quantizeAcc hk (Nat.mod_lt p (by decide)), hpixel, State.quantizedDot, decide_eq_decide.mpr hin]
    case isFalse hword => exact h.written.matrix p (by omega)
  · intro a ha
    rw [hread, if_neg (by omega)]
    exact h.written.rest a (by omega)

theorem State.WrittenTo.congr {w : Nat} {v' : State} (h : s.WrittenTo w v) (hread : v'.readDm = v.readDm) :
    s.WrittenTo w v' := by
  obtain ⟨hmatrix, hrest⟩ := h
  constructor <;> rwa [hread]

/-- The QSTEP of pixel `k` is enabled, and pixel `k` exists. -/
theorem State.QuantizedTo.exec_qstep (h : s.QuantizedTo k v) (hk : k < s.pixels) :
    exec .qstep v = .next (quantizeStep Config.btq v) := by
  have hphase : v.phase = .qRun := by rw [h.frame]
  have hpresent : v.i.toNat < 4294836225 := by
    rw [h.i_toNat hk]
    exact hk.trans_le s.pixels_le_default
  exact exec_qstep_of_qRun hphase hpresent

/-- A QSTEP that is not the last goes on to the next pixel. -/
theorem State.QuantizedTo.step (h : s.QuantizedTo k v) (hmore : k + 1 < s.pixels) :
    s.QuantizedTo (k + 1) (quantizeStep Config.btq v) := by
  have hk : k < s.pixels := Nat.lt_of_succ_lt hmore
  have hi := h.i_toNat hk
  have hnotLast : v.i.toNat + 1 ≠ v.pixels := by rw [hi, h.pixels]; omega
  have hframe : quantizeStep Config.btq v = { s with
      done := false, busy := true, phase := .qRun, i := BitVec.ofNat 32 (k + 1)
      dm := (quantizeStep Config.btq v).dm, acc := (quantizeStep Config.btq v).acc } := by
    obtain ⟨dm, acc, hstore⟩ := quantizeStore_frame Config.btq v
    rw [quantizeStep_of_not_last _ hnotLast, hstore, BitVec.ofNat_add, h.frame]
    rfl
  by_cases hfull : k % 32 = 31
  · have hword : (k + 1) / 32 = k / 32 + 1 := by omega
    have hbit : (k + 1) % 32 = 0 := by omega
    refine ⟨hframe, ?_, fun j hj => ?_⟩
    · rw [hword]
      exact (h.store_full hk (.inl hfull)).congr (quantizeStep_readDm _ v)
    · rw [quantizeStep_acc, quantizeStore_of_full (.inl (hi.symm ▸ hfull)), hbit]
      simp
  · have hword : (k + 1) / 32 = k / 32 := by omega
    have hbit : (k + 1) % 32 = k % 32 + 1 := by omega
    have hstore : quantizeStore Config.btq v = { v with acc := Machine.quantizeAcc Config.btq v } :=
      quantizeStore_of_not_full (not_or_intro (hi.symm ▸ hfull) hnotLast)
    refine ⟨hframe, ?_, fun j hj => ?_⟩
    · rw [hword]
      refine h.written.congr ?_
      rw [quantizeStep_readDm, hstore]
      rfl
    · have hbelow : j ≤ k % 32 ↔ j < k % 32 + 1 := Nat.lt_succ_iff.symm
      rw [quantizeStep_acc, hstore, hword, hbit, ← decide_eq_decide.mpr hbelow]
      exact h.quantizeAcc hk hj

/-- The last QSTEP completes with the whole matrix written. -/
theorem State.QuantizedTo.finish (h : s.QuantizedTo k v) (hidle : s.busy = false) (hlast : k + 1 = s.pixels) :
    quantizeStep Config.btq v = { s with
        done := true, phase := .idle, dm := (quantizeStep Config.btq v).dm
        i := (quantizeStep Config.btq v).i, acc := (quantizeStep Config.btq v).acc }
      ∧ s.WrittenTo s.matrixWords (quantizeStep Config.btq v) := by
  have hk : k < s.pixels := by omega
  have hlast' : v.i.toNat + 1 = v.pixels := by rw [h.i_toNat hk, h.pixels, hlast]
  have hwords : s.matrixWords = k / 32 + 1 := by rw [State.matrixWords]; omega
  constructor
  · obtain ⟨dm, acc, hstore⟩ := quantizeStore_frame Config.btq v
    rw [quantizeStep_of_last _ hlast', hstore, h.frame, hidle]
    rfl
  · rw [hwords]
    exact (h.store_full hk (.inr hlast)).congr (quantizeStep_readDm _ v)

/-- Right after the acceptance nothing is written yet. -/
theorem quantizedTo_zero (hne : s.pixels ≠ 0) : s.QuantizedTo 0 (startQuantize s) := by
  rw [startQuantize_of_nonempty hne]
  exact ⟨rfl, ⟨fun p hp => absurd hp (Nat.not_lt_zero _), fun a _ => rfl⟩, fun j _ => by simp⟩

theorem exists_quantizedTo (hk : k < s.pixels) :
    ∃ v, repeatMove k .qstep (startQuantize s) = .next v ∧ s.QuantizedTo k v := by
  induction k with
  | zero => exact ⟨_, rfl, quantizedTo_zero (Nat.ne_zero_of_lt hk)⟩
  | succ k ih =>
    obtain ⟨v, hrun, hv⟩ := ih (Nat.lt_of_succ_lt hk)
    refine ⟨_, ?_, hv.step hk⟩
    rw [repeatMove_succ hrun, hv.exec_qstep (Nat.lt_of_succ_lt hk)]

/-- N QSTEPs after an accepted QUANTIZE the matrix is written, and nothing else but DONE, I and ACC has changed. -/
theorem quantize_run (hidle : s.busy = false) (hne : s.pixels ≠ 0) :
    ∃ u, repeatMove s.pixels .qstep (startQuantize s) = .next u
      ∧ u = { s with done := true, phase := .idle, dm := u.dm, i := u.i, acc := u.acc }
      ∧ s.WrittenTo s.matrixWords u := by
  have hlast : s.pixels - 1 + 1 = s.pixels := by omega
  have hk : s.pixels - 1 < s.pixels := by omega
  obtain ⟨v, hrun, hv⟩ := exists_quantizedTo hk
  refine ⟨_, ?_, hv.finish hidle hlast⟩
  rw [← hlast, repeatMove_succ hrun, hv.exec_qstep hk]

end Run

/-- Settles O34: by induction on the QSTEPs, with the word being assembled in ACC. -/
theorem quantizeWritesTheMatrix : Obligations.QuantizeWritesTheMatrix := by
  intro s t hidle herr hne hexec
  rw [exec_quantize_of_idle hidle herr] at hexec
  obtain rfl := Host.Outcome.next.inj hexec
  refine ⟨fun k hk => ?_, ?_⟩
  · obtain ⟨v, hrun, hv⟩ := exists_quantizedTo (s := s) hk
    exact ⟨v, hrun, by rw [hv.frame]⟩
  · obtain ⟨u, hrun, hframe, hwritten⟩ := quantize_run hidle hne
    exact ⟨u, hrun, hframe, fun p hp => hwritten.matrix p (Nat.div_lt_of_lt_mul hp), hwritten.rest⟩

/-- A pixel of the matrix has a number below N. -/
theorem pixelIndex_lt {w h x y : Nat} (hx : x < w) (hy : y < h) : pixelIndex w x y < w * h :=
  calc pixelIndex w x y < y * w + w := Nat.add_lt_add_left hx _
    _ = (y + 1) * w := by ring
    _ ≤ h * w := Nat.mul_le_mul_right w hy
    _ = w * h := Nat.mul_comm h w

/-- Settles O35: a data byte reads the dots of its rows, and each is the dot that QUANTIZE has written. -/
theorem dataByteShowsThePixels : Obligations.DataByteShowsThePixels := by
  intro s t u hidle herr hne hexec hrun x r0 b hx hb
  rw [exec_quantize_of_idle hidle herr] at hexec
  obtain rfl := Host.Outcome.next.inj hexec
  obtain ⟨u', hrun', hframe, hwritten⟩ := quantize_run hidle hne
  obtain rfl : u' = u := Host.Outcome.next.inj (hrun'.symm.trans hrun)
  have hwidth : u'.width = s.width := by rw [hframe]
  have hheight : u'.height = s.height := by rw [hframe]
  rw [State.colByte, colByte_getLsbD _ _ _ _ _ hb, hwidth, hheight, colDot]
  split
  case isFalse hrow => rw [decide_eq_false hrow, Bool.false_and]
  case isTrue hrow =>
    have hpixel : pixelIndex s.width.toNat x (r0 + b) < s.pixels := pixelIndex_lt hx hrow
    have hword : pixelIndex s.width.toNat x (r0 + b) / 32 < s.matrixWords := by rw [State.matrixWords]; omega
    rw [hwritten.matrix _ hword, State.quantizedDot, decide_eq_true hpixel, decide_eq_true hrow]
    rfl

end Sys2Proof.Machine
